-- ==== Sys2Proof/Word.lean ====
section
/-! DEFINITION. The word types of the core (00_scope.md R9, 20_memory.md R81). -/

namespace Sys2Proof

/-- A byte: the width of a memory cell, a port and a byte register. -/
abbrev Byte := BitVec 8

/-- A 16-bit word: the width of every register of the core. -/
abbrev Word := BitVec 16

/-- A physical address: 20 bits, so that address arithmetic wraps at 1 MiB (20_memory.md R81). -/
abbrev PAddr := BitVec 20

end Sys2Proof
end

