-- ==== Sys2Proof/Config.lean ====
section
/-! DEFINITION. What an implementation fixes: the named parameters of 00_scope.md R7, and the free
values, opaque constants of which nothing can be proved. -/

namespace Sys2Proof

/-- `P_AF_MODE` (10_state.md R47). -/
inductive AfMode where
  | intel
  | unchanged
  deriving DecidableEq, Repr

/-- `P_UNDEF_FLAGS` (10_state.md R48). -/
inductive UndefMode where
  | draw
  | unchanged
  deriving DecidableEq, Repr

/-- The named parameters the model takes as arguments (00_scope.md R7). They stand in the state, are
never written by a step, and their defaults are `Machine.defaultParams` (log 7). -/
structure Params where
  /-- `P_FLAGS_FORCED_ONES` (10_state.md R39). -/
  flagsForcedOnes : Word
  /-- `P_SINGLE_STEP` (60_exceptions.md R624). -/
  singleStep : Bool
  /-- `P_AF_MODE` (10_state.md R47). -/
  afMode : AfMode
  /-- `P_IDIV_ACCEPT_MIN` (42_muldiv_bcd.md R304). -/
  idivAcceptMin : Bool
  /-- `P_NOT_SETS_FLAGS` (41_arith_logic.md R264). -/
  notSetsFlags : Bool
  /-- `P_UNDEF_FLAGS` (10_state.md R48). -/
  undefFlags : UndefMode
  deriving DecidableEq, Repr

/-- FREE VALUE. The `n`-th flag value drawn for a flag the spec calls undefined (10_state.md R48;
log 6). -/
opaque Config.freeFlag : Nat → Bool

/-- FREE VALUE. The bus's answer to a read of a byte that no memory holds, for which the host has placed none,
taken at the `n`-th draw (20_memory.md R80, D32; log 3). -/
opaque Config.freeMemByte : Nat → BitVec 8

/-- FREE VALUE. The bus's answer to a port read for which the host has placed none, taken at the `n`-th
draw (20_memory.md R80, R83; log 5). -/
opaque Config.freePortByte : Nat → BitVec 8

end Sys2Proof
end

