-- ==== Sys2Proof/Syntax.lean ====
section
/-! DEFINITION. The instructions, one constructor per form of spec/opcode_table.json, with operands
already pulled out of the bytes (30_encoding.md R121 to R157). Rows that differ only in a register
number, a segment register number or the mod value of a memory-only form are one constructor. -/

namespace Sys2Proof

/-- Word registers, in the order of their numbers (30_encoding.md R125). -/
inductive Reg16 where
  | ax | cx | dx | bx | sp | bp | si | di
  deriving DecidableEq, Repr

/-- Byte registers, in the order of their numbers (30_encoding.md R126). -/
inductive Reg8 where
  | al | cl | dl | bl | ah | ch | dh | bh
  deriving DecidableEq, Repr

/-- Segment registers, in the order of their numbers (30_encoding.md R127). -/
inductive SegReg where
  | es | cs | ss | ds
  deriving DecidableEq, Repr

/-- The base and index sum a memory operand starts from, in the order of rm (30_encoding.md R128). -/
inductive BaseIdx where
  | bxSi | bxDi | bpSi | bpDi | si | di | bp | bx
  deriving DecidableEq, Repr

/-- A ModRM memory operand as encoded: the mod field chooses the displacement
(30_encoding.md R128, R129). -/
inductive MemOp where
  /-- mod = 00, no displacement; `bp` has no such form (WellFormed). -/
  | base (b : BaseIdx)
  /-- mod = 01, one displacement byte, sign-extended. -/
  | disp8 (b : BaseIdx) (d : Byte)
  /-- mod = 10, a displacement word. -/
  | disp16 (b : BaseIdx) (d : Word)
  /-- mod = 00, rm = 110: a bare 16-bit offset. -/
  | direct (a : Word)
  deriving DecidableEq, Repr

/-- A ModRM r/m operand over the register names `R` (30_encoding.md R130, R131). -/
inductive Rm (R : Type) where
  | reg (r : R)
  | mem (p : MemOp)
  deriving DecidableEq, Repr

/-- The r/m operand with its register renamed by `f`. -/
def Rm.map {R S : Type} (f : R → S) : Rm R → Rm S
  | .reg r => .reg (f r)
  | .mem p => .mem p

/-- The instructions. In the argument names `m` is an r/m operand, `r` a register, `g` a segment
register, `p` a memory operand, `i` an immediate, `d` a relative displacement. -/
inductive Instr where
  -- ALU block and group 1 (41_arith_logic.md R250, R254 to R261)
  /-- `ADD Eb,Gb` (00). -/
  | addEbGb (m : Rm Reg8) (r : Reg8)
  /-- `ADD Ev,Gv` (01). -/
  | addEvGv (m : Rm Reg16) (r : Reg16)
  /-- `ADD Gb,Eb` (02). -/
  | addGbEb (r : Reg8) (m : Rm Reg8)
  /-- `ADD Gv,Ev` (03). -/
  | addGvEv (r : Reg16) (m : Rm Reg16)
  /-- `ADD AL,Ib` (04). -/
  | addAlIb (i : Byte)
  /-- `ADD AX,Iv` (05). -/
  | addAxIv (i : Word)
  /-- `ADD Eb,Ib` (80 /0). -/
  | addEbIb (m : Rm Reg8) (i : Byte)
  /-- `ADD Ev,Iv` (81 /0). -/
  | addEvIv (m : Rm Reg16) (i : Word)
  /-- `ADD Ev,simm8` (83 /0), the byte sign-extended. -/
  | addEvSb (m : Rm Reg16) (i : Byte)
  /-- `OR Eb,Gb` (08). -/
  | orEbGb (m : Rm Reg8) (r : Reg8)
  /-- `OR Ev,Gv` (09). -/
  | orEvGv (m : Rm Reg16) (r : Reg16)
  /-- `OR Gb,Eb` (0A). -/
  | orGbEb (r : Reg8) (m : Rm Reg8)
  /-- `OR Gv,Ev` (0B). -/
  | orGvEv (r : Reg16) (m : Rm Reg16)
  /-- `OR AL,Ib` (0C). -/
  | orAlIb (i : Byte)
  /-- `OR AX,Iv` (0D). -/
  | orAxIv (i : Word)
  /-- `OR Eb,Ib` (80 /1). -/
  | orEbIb (m : Rm Reg8) (i : Byte)
  /-- `OR Ev,Iv` (81 /1). -/
  | orEvIv (m : Rm Reg16) (i : Word)
  /-- `OR Ev,simm8` (83 /1), the byte sign-extended. -/
  | orEvSb (m : Rm Reg16) (i : Byte)
  /-- `ADC Eb,Gb` (10). -/
  | adcEbGb (m : Rm Reg8) (r : Reg8)
  /-- `ADC Ev,Gv` (11). -/
  | adcEvGv (m : Rm Reg16) (r : Reg16)
  /-- `ADC Gb,Eb` (12). -/
  | adcGbEb (r : Reg8) (m : Rm Reg8)
  /-- `ADC Gv,Ev` (13). -/
  | adcGvEv (r : Reg16) (m : Rm Reg16)
  /-- `ADC AL,Ib` (14). -/
  | adcAlIb (i : Byte)
  /-- `ADC AX,Iv` (15). -/
  | adcAxIv (i : Word)
  /-- `ADC Eb,Ib` (80 /2). -/
  | adcEbIb (m : Rm Reg8) (i : Byte)
  /-- `ADC Ev,Iv` (81 /2). -/
  | adcEvIv (m : Rm Reg16) (i : Word)
  /-- `ADC Ev,simm8` (83 /2), the byte sign-extended. -/
  | adcEvSb (m : Rm Reg16) (i : Byte)
  /-- `SBB Eb,Gb` (18). -/
  | sbbEbGb (m : Rm Reg8) (r : Reg8)
  /-- `SBB Ev,Gv` (19). -/
  | sbbEvGv (m : Rm Reg16) (r : Reg16)
  /-- `SBB Gb,Eb` (1A). -/
  | sbbGbEb (r : Reg8) (m : Rm Reg8)
  /-- `SBB Gv,Ev` (1B). -/
  | sbbGvEv (r : Reg16) (m : Rm Reg16)
  /-- `SBB AL,Ib` (1C). -/
  | sbbAlIb (i : Byte)
  /-- `SBB AX,Iv` (1D). -/
  | sbbAxIv (i : Word)
  /-- `SBB Eb,Ib` (80 /3). -/
  | sbbEbIb (m : Rm Reg8) (i : Byte)
  /-- `SBB Ev,Iv` (81 /3). -/
  | sbbEvIv (m : Rm Reg16) (i : Word)
  /-- `SBB Ev,simm8` (83 /3), the byte sign-extended. -/
  | sbbEvSb (m : Rm Reg16) (i : Byte)
  /-- `AND Eb,Gb` (20). -/
  | andEbGb (m : Rm Reg8) (r : Reg8)
  /-- `AND Ev,Gv` (21). -/
  | andEvGv (m : Rm Reg16) (r : Reg16)
  /-- `AND Gb,Eb` (22). -/
  | andGbEb (r : Reg8) (m : Rm Reg8)
  /-- `AND Gv,Ev` (23). -/
  | andGvEv (r : Reg16) (m : Rm Reg16)
  /-- `AND AL,Ib` (24). -/
  | andAlIb (i : Byte)
  /-- `AND AX,Iv` (25). -/
  | andAxIv (i : Word)
  /-- `AND Eb,Ib` (80 /4). -/
  | andEbIb (m : Rm Reg8) (i : Byte)
  /-- `AND Ev,Iv` (81 /4). -/
  | andEvIv (m : Rm Reg16) (i : Word)
  /-- `AND Ev,simm8` (83 /4), the byte sign-extended. -/
  | andEvSb (m : Rm Reg16) (i : Byte)
  /-- `SUB Eb,Gb` (28). -/
  | subEbGb (m : Rm Reg8) (r : Reg8)
  /-- `SUB Ev,Gv` (29). -/
  | subEvGv (m : Rm Reg16) (r : Reg16)
  /-- `SUB Gb,Eb` (2A). -/
  | subGbEb (r : Reg8) (m : Rm Reg8)
  /-- `SUB Gv,Ev` (2B). -/
  | subGvEv (r : Reg16) (m : Rm Reg16)
  /-- `SUB AL,Ib` (2C). -/
  | subAlIb (i : Byte)
  /-- `SUB AX,Iv` (2D). -/
  | subAxIv (i : Word)
  /-- `SUB Eb,Ib` (80 /5). -/
  | subEbIb (m : Rm Reg8) (i : Byte)
  /-- `SUB Ev,Iv` (81 /5). -/
  | subEvIv (m : Rm Reg16) (i : Word)
  /-- `SUB Ev,simm8` (83 /5), the byte sign-extended. -/
  | subEvSb (m : Rm Reg16) (i : Byte)
  /-- `XOR Eb,Gb` (30). -/
  | xorEbGb (m : Rm Reg8) (r : Reg8)
  /-- `XOR Ev,Gv` (31). -/
  | xorEvGv (m : Rm Reg16) (r : Reg16)
  /-- `XOR Gb,Eb` (32). -/
  | xorGbEb (r : Reg8) (m : Rm Reg8)
  /-- `XOR Gv,Ev` (33). -/
  | xorGvEv (r : Reg16) (m : Rm Reg16)
  /-- `XOR AL,Ib` (34). -/
  | xorAlIb (i : Byte)
  /-- `XOR AX,Iv` (35). -/
  | xorAxIv (i : Word)
  /-- `XOR Eb,Ib` (80 /6). -/
  | xorEbIb (m : Rm Reg8) (i : Byte)
  /-- `XOR Ev,Iv` (81 /6). -/
  | xorEvIv (m : Rm Reg16) (i : Word)
  /-- `XOR Ev,simm8` (83 /6), the byte sign-extended. -/
  | xorEvSb (m : Rm Reg16) (i : Byte)
  /-- `CMP Eb,Gb` (38). -/
  | cmpEbGb (m : Rm Reg8) (r : Reg8)
  /-- `CMP Ev,Gv` (39). -/
  | cmpEvGv (m : Rm Reg16) (r : Reg16)
  /-- `CMP Gb,Eb` (3A). -/
  | cmpGbEb (r : Reg8) (m : Rm Reg8)
  /-- `CMP Gv,Ev` (3B). -/
  | cmpGvEv (r : Reg16) (m : Rm Reg16)
  /-- `CMP AL,Ib` (3C). -/
  | cmpAlIb (i : Byte)
  /-- `CMP AX,Iv` (3D). -/
  | cmpAxIv (i : Word)
  /-- `CMP Eb,Ib` (80 /7). -/
  | cmpEbIb (m : Rm Reg8) (i : Byte)
  /-- `CMP Ev,Iv` (81 /7). -/
  | cmpEvIv (m : Rm Reg16) (i : Word)
  /-- `CMP Ev,simm8` (83 /7), the byte sign-extended. -/
  | cmpEvSb (m : Rm Reg16) (i : Byte)
  -- TEST, NOT, NEG, INC, DEC (41_arith_logic.md R262 to R269)
  /-- `TEST Eb,Gb` (84). -/
  | testEbGb (m : Rm Reg8) (r : Reg8)
  /-- `TEST Ev,Gv` (85). -/
  | testEvGv (m : Rm Reg16) (r : Reg16)
  /-- `TEST AL,Ib` (A8). -/
  | testAlIb (i : Byte)
  /-- `TEST AX,Iv` (A9). -/
  | testAxIv (i : Word)
  /-- `TEST Eb,Ib` (F6 /0). -/
  | testEbIb (m : Rm Reg8) (i : Byte)
  /-- `TEST Ev,Iv` (F7 /0). -/
  | testEvIv (m : Rm Reg16) (i : Word)
  /-- `NOT Eb` (F6 /2). -/
  | notEb (m : Rm Reg8)
  /-- `NOT Ev` (F7 /2). -/
  | notEv (m : Rm Reg16)
  /-- `NEG Eb` (F6 /3). -/
  | negEb (m : Rm Reg8)
  /-- `NEG Ev` (F7 /3). -/
  | negEv (m : Rm Reg16)
  /-- `INC Eb` (FE /0). -/
  | incEb (m : Rm Reg8)
  /-- `INC Ev` (FF /0). -/
  | incEv (m : Rm Reg16)
  /-- `INC r16` (40+r). -/
  | incR16 (r : Reg16)
  /-- `DEC Eb` (FE /1). -/
  | decEb (m : Rm Reg8)
  /-- `DEC Ev` (FF /1). -/
  | decEv (m : Rm Reg16)
  /-- `DEC r16` (48+r). -/
  | decR16 (r : Reg16)
  -- data movement (40_data_movement.md R200 to R217)
  /-- `MOV Eb,Gb` (88). -/
  | movEbGb (m : Rm Reg8) (r : Reg8)
  /-- `MOV Ev,Gv` (89). -/
  | movEvGv (m : Rm Reg16) (r : Reg16)
  /-- `MOV Gb,Eb` (8A). -/
  | movGbEb (r : Reg8) (m : Rm Reg8)
  /-- `MOV Gv,Ev` (8B). -/
  | movGvEv (r : Reg16) (m : Rm Reg16)
  /-- `MOV Eb,Ib` (C6 /0). -/
  | movEbIb (m : Rm Reg8) (i : Byte)
  /-- `MOV Ev,Iv` (C7 /0). -/
  | movEvIv (m : Rm Reg16) (i : Word)
  /-- `MOV r8,Ib` (B0+r). -/
  | movR8Ib (r : Reg8) (i : Byte)
  /-- `MOV r16,Iv` (B8+r). -/
  | movR16Iv (r : Reg16) (i : Word)
  /-- `MOV Sw,Ew` (8E), Sw not CS. -/
  | movSwEw (g : SegReg) (m : Rm Reg16)
  /-- `MOV Ew,Sw` (8C). -/
  | movEwSw (m : Rm Reg16) (g : SegReg)
  /-- `MOV AL,Ob` (A0). -/
  | movAlOb (a : Word)
  /-- `MOV AX,Ov` (A1). -/
  | movAxOv (a : Word)
  /-- `MOV Ob,AL` (A2). -/
  | movObAl (a : Word)
  /-- `MOV Ov,AX` (A3). -/
  | movOvAx (a : Word)
  /-- `XCHG Eb,Gb` (86). -/
  | xchgEbGb (m : Rm Reg8) (r : Reg8)
  /-- `XCHG Ev,Gv` (87). -/
  | xchgEvGv (m : Rm Reg16) (r : Reg16)
  /-- `XCHG AX,r16` (90+r), r not AX. -/
  | xchgAxR16 (r : Reg16)
  /-- `LEA Gv,M` (8D). -/
  | lea (r : Reg16) (p : MemOp)
  /-- `LDS Gv,M` (C5). -/
  | lds (r : Reg16) (p : MemOp)
  /-- `LES Gv,M` (C4). -/
  | les (r : Reg16) (p : MemOp)
  /-- `XLAT` (D7). -/
  | xlat
  /-- `LAHF` (9F). -/
  | lahf
  /-- `SAHF` (9E). -/
  | sahf
  /-- `CBW` (98). -/
  | cbw
  /-- `CWD` (99). -/
  | cwd
  -- multiply, divide, decimal adjust (42_muldiv_bcd.md R301 to R311)
  /-- `MUL Eb` (F6 /4). -/
  | mulEb (m : Rm Reg8)
  /-- `MUL Ev` (F7 /4). -/
  | mulEv (m : Rm Reg16)
  /-- `IMUL Eb` (F6 /5). -/
  | imulEb (m : Rm Reg8)
  /-- `IMUL Ev` (F7 /5). -/
  | imulEv (m : Rm Reg16)
  /-- `DIV Eb` (F6 /6). -/
  | divEb (m : Rm Reg8)
  /-- `DIV Ev` (F7 /6). -/
  | divEv (m : Rm Reg16)
  /-- `IDIV Eb` (F6 /7). -/
  | idivEb (m : Rm Reg8)
  /-- `IDIV Ev` (F7 /7). -/
  | idivEv (m : Rm Reg16)
  /-- `DAA` (27). -/
  | daa
  /-- `DAS` (2F). -/
  | das
  /-- `AAA` (37). -/
  | aaa
  /-- `AAS` (3F). -/
  | aas
  /-- `AAM Ib` (D4). -/
  | aam (i : Byte)
  /-- `AAD Ib` (D5). -/
  | aad (i : Byte)
  -- control transfer (43_control_transfer.md R342 to R359)
  /-- `JO rel8` (70). -/
  | jo (d : Byte)
  /-- `JNO rel8` (71). -/
  | jno (d : Byte)
  /-- `JB rel8` (72). -/
  | jb (d : Byte)
  /-- `JAE rel8` (73). -/
  | jae (d : Byte)
  /-- `JE rel8` (74). -/
  | je (d : Byte)
  /-- `JNE rel8` (75). -/
  | jne (d : Byte)
  /-- `JBE rel8` (76). -/
  | jbe (d : Byte)
  /-- `JA rel8` (77). -/
  | ja (d : Byte)
  /-- `JS rel8` (78). -/
  | js (d : Byte)
  /-- `JNS rel8` (79). -/
  | jns (d : Byte)
  /-- `JP rel8` (7A). -/
  | jp (d : Byte)
  /-- `JNP rel8` (7B). -/
  | jnp (d : Byte)
  /-- `JL rel8` (7C). -/
  | jl (d : Byte)
  /-- `JGE rel8` (7D). -/
  | jge (d : Byte)
  /-- `JLE rel8` (7E). -/
  | jle (d : Byte)
  /-- `JG rel8` (7F). -/
  | jg (d : Byte)
  /-- `JMP rel8` (EB). -/
  | jmpShort (d : Byte)
  /-- `JMP rel16` (E9). -/
  | jmpNear (d : Word)
  /-- `JMP ptr16:16` (EA). -/
  | jmpFar (off : Word) (sg : Word)
  /-- `JMP Ev` (FF /4). -/
  | jmpEv (m : Rm Reg16)
  /-- `JMP Mp` (FF /5). -/
  | jmpMp (p : MemOp)
  /-- `CALL rel16` (E8). -/
  | callNear (d : Word)
  /-- `CALL ptr16:16` (9A). -/
  | callFar (off : Word) (sg : Word)
  /-- `CALL Ev` (FF /2). -/
  | callEv (m : Rm Reg16)
  /-- `CALL Mp` (FF /3). -/
  | callMp (p : MemOp)
  /-- `RET` (C3). -/
  | ret
  /-- `RET Iw` (C2). -/
  | retIw (n : Word)
  /-- `RETF` (CB). -/
  | retf
  /-- `RETF Iw` (CA). -/
  | retfIw (n : Word)
  /-- `LOOP rel8` (E2). -/
  | loopJb (d : Byte)
  /-- `LOOPZ rel8` (E1). -/
  | loopz (d : Byte)
  /-- `LOOPNZ rel8` (E0). -/
  | loopnz (d : Byte)
  /-- `JCXZ rel8` (E3). -/
  | jcxz (d : Byte)
  -- strings (44_string.md R394 to R398)
  /-- `MOVSB` (A4). -/
  | movsb
  /-- `MOVSW` (A5). -/
  | movsw
  /-- `CMPSB` (A6). -/
  | cmpsb
  /-- `CMPSW` (A7). -/
  | cmpsw
  /-- `STOSB` (AA). -/
  | stosb
  /-- `STOSW` (AB). -/
  | stosw
  /-- `LODSB` (AC). -/
  | lodsb
  /-- `LODSW` (AD). -/
  | lodsw
  /-- `SCASB` (AE). -/
  | scasb
  /-- `SCASW` (AF). -/
  | scasw
  -- group 2 shifts and rotates (45_shift_rotate.md R423 to R429)
  /-- `ROL Eb,1` (D0 /0). -/
  | rolEb1 (m : Rm Reg8)
  /-- `ROL Ev,1` (D1 /0). -/
  | rolEv1 (m : Rm Reg16)
  /-- `ROL Eb,CL` (D2 /0). -/
  | rolEbCl (m : Rm Reg8)
  /-- `ROL Ev,CL` (D3 /0). -/
  | rolEvCl (m : Rm Reg16)
  /-- `ROR Eb,1` (D0 /1). -/
  | rorEb1 (m : Rm Reg8)
  /-- `ROR Ev,1` (D1 /1). -/
  | rorEv1 (m : Rm Reg16)
  /-- `ROR Eb,CL` (D2 /1). -/
  | rorEbCl (m : Rm Reg8)
  /-- `ROR Ev,CL` (D3 /1). -/
  | rorEvCl (m : Rm Reg16)
  /-- `RCL Eb,1` (D0 /2). -/
  | rclEb1 (m : Rm Reg8)
  /-- `RCL Ev,1` (D1 /2). -/
  | rclEv1 (m : Rm Reg16)
  /-- `RCL Eb,CL` (D2 /2). -/
  | rclEbCl (m : Rm Reg8)
  /-- `RCL Ev,CL` (D3 /2). -/
  | rclEvCl (m : Rm Reg16)
  /-- `RCR Eb,1` (D0 /3). -/
  | rcrEb1 (m : Rm Reg8)
  /-- `RCR Ev,1` (D1 /3). -/
  | rcrEv1 (m : Rm Reg16)
  /-- `RCR Eb,CL` (D2 /3). -/
  | rcrEbCl (m : Rm Reg8)
  /-- `RCR Ev,CL` (D3 /3). -/
  | rcrEvCl (m : Rm Reg16)
  /-- `SHL Eb,1` (D0 /4). -/
  | shlEb1 (m : Rm Reg8)
  /-- `SHL Ev,1` (D1 /4). -/
  | shlEv1 (m : Rm Reg16)
  /-- `SHL Eb,CL` (D2 /4). -/
  | shlEbCl (m : Rm Reg8)
  /-- `SHL Ev,CL` (D3 /4). -/
  | shlEvCl (m : Rm Reg16)
  /-- `SHR Eb,1` (D0 /5). -/
  | shrEb1 (m : Rm Reg8)
  /-- `SHR Ev,1` (D1 /5). -/
  | shrEv1 (m : Rm Reg16)
  /-- `SHR Eb,CL` (D2 /5). -/
  | shrEbCl (m : Rm Reg8)
  /-- `SHR Ev,CL` (D3 /5). -/
  | shrEvCl (m : Rm Reg16)
  /-- `SAR Eb,1` (D0 /7). -/
  | sarEb1 (m : Rm Reg8)
  /-- `SAR Ev,1` (D1 /7). -/
  | sarEv1 (m : Rm Reg16)
  /-- `SAR Eb,CL` (D2 /7). -/
  | sarEbCl (m : Rm Reg8)
  /-- `SAR Ev,CL` (D3 /7). -/
  | sarEvCl (m : Rm Reg16)
  -- stack (46_stack.md R452 to R459)
  /-- `PUSH r16` (50+r). -/
  | pushR16 (r : Reg16)
  /-- `PUSH sreg` (06, 0E, 16, 1E). -/
  | pushSreg (g : SegReg)
  /-- `PUSH Ev` (FF /6). -/
  | pushEv (m : Rm Reg16)
  /-- `POP r16` (58+r). -/
  | popR16 (r : Reg16)
  /-- `POP sreg` (07, 17, 1F), sreg not CS. -/
  | popSreg (g : SegReg)
  /-- `POP Ev` (8F /0). -/
  | popEv (m : Rm Reg16)
  /-- `PUSHF` (9C). -/
  | pushf
  /-- `POPF` (9D). -/
  | popf
  -- ports (47_io.md R481 to R484)
  /-- `IN AL,Ib` (E4). -/
  | inAlIb (i : Byte)
  /-- `IN AL,DX` (EC). -/
  | inAlDx
  /-- `OUT Ib,AL` (E6). -/
  | outIbAl (i : Byte)
  /-- `OUT DX,AL` (EE). -/
  | outDxAl
  -- interrupt instructions (48_interrupt_instr.md R491 to R494)
  /-- `INT3` (CC). -/
  | int3
  /-- `INT Ib` (CD). -/
  | intIb (i : Byte)
  /-- `INTO` (CE). -/
  | into
  /-- `IRET` (CF). -/
  | iret
  -- flag and processor control (49_processor_control.md R500 to R511)
  /-- `CLC` (F8). -/
  | clc
  /-- `STC` (F9). -/
  | stc
  /-- `CMC` (F5). -/
  | cmc
  /-- `CLI` (FA). -/
  | cli
  /-- `STI` (FB). -/
  | sti
  /-- `CLD` (FC). -/
  | cld
  /-- `STD` (FD). -/
  | std
  /-- `HLT` (F4). -/
  | hlt
  /-- `WAIT` (9B). -/
  | wait
  /-- `NOP` (90). -/
  | nop
  /-- `ESC` (D8+k), q the coprocessor field in ModRM reg. -/
  | esc (k : BitVec 3) (q : BitVec 3) (m : Rm Reg16)
  -- prefix bytes (30_encoding.md R139)
  /-- prefix byte 26: segment override ES. -/
  | pfxEs
  /-- prefix byte 2E: segment override CS. -/
  | pfxCs
  /-- prefix byte 36: segment override SS. -/
  | pfxSs
  /-- prefix byte 3E: segment override DS. -/
  | pfxDs
  /-- prefix byte F0: LOCK. -/
  | pfxLock
  /-- prefix byte F2: REPNE / REPNZ. -/
  | pfxRepnz
  /-- prefix byte F3: REP / REPE / REPZ. -/
  | pfxRepz
  -- the INVALID rows (30_encoding.md R149 to R152)
  /-- an opcode byte that selects no instruction (30_encoding.md R149). -/
  | invalidOp (b : Byte)
  /-- a ModRM reg field `q` that selects no instruction of opcode `b` (R150, R151); ModRM and displacement are read. -/
  | invalidSub (b : Byte) (q : BitVec 3) (m : Rm (BitVec 3))
  /-- a register form (mod = 11, rm = `n`) of an instruction that needs memory (R152). -/
  | invalidForm (b : Byte) (q : BitVec 3) (n : BitVec 3)
  deriving DecidableEq, Repr

end Sys2Proof
end

