-- ==== Sys2Proof/WellFormed.lean ====
section
/-! DEFINITION. Which terms of `Instr` are instructions: the checks the encoding makes (a form that no
byte sequence stands for, or that another constructor stands for, is ill-formed). -/

namespace Sys2Proof

/-- mod = 00 with rm = 110 is the direct form, so `[BP]` without a displacement has no encoding
(30_encoding.md R128, R132). -/
def MemOp.wf : MemOp → Bool
  | .base b => b != .bp
  | .disp8 _ _ => true
  | .disp16 _ _ => true
  | .direct _ => true

def Rm.wf {R : Type} : Rm R → Bool
  | .reg _ => true
  | .mem p => p.wf

/-- The opcode bytes that select no instruction (30_encoding.md R149). -/
def invalidByte (b : Byte) : Bool :=
  b ∈ [0x0F#8, 0x82#8, 0xC0#8, 0xC1#8, 0xC8#8, 0xC9#8, 0xD6#8, 0xE5#8, 0xE7#8, 0xED#8, 0xEF#8, 0xF1#8]
    || b.toNat / 16 == 6

/-- The ModRM reg fields that select no instruction of a group opcode (30_encoding.md R150) or name no
segment register it may use (R151). -/
def invalidReg (b : Byte) (q : BitVec 3) : Bool :=
  (b ∈ [0xD0#8, 0xD1#8, 0xD2#8, 0xD3#8] && q == 6#3)
    || (b ∈ [0xF6#8, 0xF7#8] && q == 1#3)
    || (b == 0xFE#8 && 2 ≤ q.toNat)
    || (b == 0xFF#8 && q == 7#3)
    || (b ∈ [0x8F#8, 0xC6#8, 0xC7#8] && q != 0#3)
    || (b ∈ [0x8C#8, 0x8E#8] && 4 ≤ q.toNat)
    || (b == 0x8E#8 && q == 1#3)

/-- The opcodes (and reg fields of 0xFF) whose r/m operand must be memory (30_encoding.md R152). -/
def memoryOnly (b : Byte) (q : BitVec 3) : Bool :=
  b ∈ [0x8D#8, 0xC4#8, 0xC5#8] || (b == 0xFF#8 && q ∈ [3#3, 5#3])

/-- Well-formed instructions: exactly those the decoder can answer. -/
def Instr.wf : Instr → Bool
  | .addEbGb m _ => m.wf
  | .addEvGv m _ => m.wf
  | .addGbEb _ m => m.wf
  | .addGvEv _ m => m.wf
  | .addAlIb _ => true
  | .addAxIv _ => true
  | .addEbIb m _ => m.wf
  | .addEvIv m _ => m.wf
  | .addEvSb m _ => m.wf
  | .orEbGb m _ => m.wf
  | .orEvGv m _ => m.wf
  | .orGbEb _ m => m.wf
  | .orGvEv _ m => m.wf
  | .orAlIb _ => true
  | .orAxIv _ => true
  | .orEbIb m _ => m.wf
  | .orEvIv m _ => m.wf
  | .orEvSb m _ => m.wf
  | .adcEbGb m _ => m.wf
  | .adcEvGv m _ => m.wf
  | .adcGbEb _ m => m.wf
  | .adcGvEv _ m => m.wf
  | .adcAlIb _ => true
  | .adcAxIv _ => true
  | .adcEbIb m _ => m.wf
  | .adcEvIv m _ => m.wf
  | .adcEvSb m _ => m.wf
  | .sbbEbGb m _ => m.wf
  | .sbbEvGv m _ => m.wf
  | .sbbGbEb _ m => m.wf
  | .sbbGvEv _ m => m.wf
  | .sbbAlIb _ => true
  | .sbbAxIv _ => true
  | .sbbEbIb m _ => m.wf
  | .sbbEvIv m _ => m.wf
  | .sbbEvSb m _ => m.wf
  | .andEbGb m _ => m.wf
  | .andEvGv m _ => m.wf
  | .andGbEb _ m => m.wf
  | .andGvEv _ m => m.wf
  | .andAlIb _ => true
  | .andAxIv _ => true
  | .andEbIb m _ => m.wf
  | .andEvIv m _ => m.wf
  | .andEvSb m _ => m.wf
  | .subEbGb m _ => m.wf
  | .subEvGv m _ => m.wf
  | .subGbEb _ m => m.wf
  | .subGvEv _ m => m.wf
  | .subAlIb _ => true
  | .subAxIv _ => true
  | .subEbIb m _ => m.wf
  | .subEvIv m _ => m.wf
  | .subEvSb m _ => m.wf
  | .xorEbGb m _ => m.wf
  | .xorEvGv m _ => m.wf
  | .xorGbEb _ m => m.wf
  | .xorGvEv _ m => m.wf
  | .xorAlIb _ => true
  | .xorAxIv _ => true
  | .xorEbIb m _ => m.wf
  | .xorEvIv m _ => m.wf
  | .xorEvSb m _ => m.wf
  | .cmpEbGb m _ => m.wf
  | .cmpEvGv m _ => m.wf
  | .cmpGbEb _ m => m.wf
  | .cmpGvEv _ m => m.wf
  | .cmpAlIb _ => true
  | .cmpAxIv _ => true
  | .cmpEbIb m _ => m.wf
  | .cmpEvIv m _ => m.wf
  | .cmpEvSb m _ => m.wf
  | .testEbGb m _ => m.wf
  | .testEvGv m _ => m.wf
  | .testAlIb _ => true
  | .testAxIv _ => true
  | .testEbIb m _ => m.wf
  | .testEvIv m _ => m.wf
  | .notEb m => m.wf
  | .notEv m => m.wf
  | .negEb m => m.wf
  | .negEv m => m.wf
  | .incEb m => m.wf
  | .incEv m => m.wf
  | .incR16 _ => true
  | .decEb m => m.wf
  | .decEv m => m.wf
  | .decR16 _ => true
  | .movEbGb m _ => m.wf
  | .movEvGv m _ => m.wf
  | .movGbEb _ m => m.wf
  | .movGvEv _ m => m.wf
  | .movEbIb m _ => m.wf
  | .movEvIv m _ => m.wf
  | .movR8Ib _ _ => true
  | .movR16Iv _ _ => true
  | .movSwEw g m => g != .cs && m.wf
  | .movEwSw m _ => m.wf
  | .movAlOb _ => true
  | .movAxOv _ => true
  | .movObAl _ => true
  | .movOvAx _ => true
  | .xchgEbGb m _ => m.wf
  | .xchgEvGv m _ => m.wf
  | .xchgAxR16 r => r != .ax
  | .lea _ p => p.wf
  | .lds _ p => p.wf
  | .les _ p => p.wf
  | .xlat => true
  | .lahf => true
  | .sahf => true
  | .cbw => true
  | .cwd => true
  | .mulEb m => m.wf
  | .mulEv m => m.wf
  | .imulEb m => m.wf
  | .imulEv m => m.wf
  | .divEb m => m.wf
  | .divEv m => m.wf
  | .idivEb m => m.wf
  | .idivEv m => m.wf
  | .daa => true
  | .das => true
  | .aaa => true
  | .aas => true
  | .aam _ => true
  | .aad _ => true
  | .jo _ => true
  | .jno _ => true
  | .jb _ => true
  | .jae _ => true
  | .je _ => true
  | .jne _ => true
  | .jbe _ => true
  | .ja _ => true
  | .js _ => true
  | .jns _ => true
  | .jp _ => true
  | .jnp _ => true
  | .jl _ => true
  | .jge _ => true
  | .jle _ => true
  | .jg _ => true
  | .jmpShort _ => true
  | .jmpNear _ => true
  | .jmpFar _ _ => true
  | .jmpEv m => m.wf
  | .jmpMp p => p.wf
  | .callNear _ => true
  | .callFar _ _ => true
  | .callEv m => m.wf
  | .callMp p => p.wf
  | .ret => true
  | .retIw _ => true
  | .retf => true
  | .retfIw _ => true
  | .loopJb _ => true
  | .loopz _ => true
  | .loopnz _ => true
  | .jcxz _ => true
  | .movsb => true
  | .movsw => true
  | .cmpsb => true
  | .cmpsw => true
  | .stosb => true
  | .stosw => true
  | .lodsb => true
  | .lodsw => true
  | .scasb => true
  | .scasw => true
  | .rolEb1 m => m.wf
  | .rolEv1 m => m.wf
  | .rolEbCl m => m.wf
  | .rolEvCl m => m.wf
  | .rorEb1 m => m.wf
  | .rorEv1 m => m.wf
  | .rorEbCl m => m.wf
  | .rorEvCl m => m.wf
  | .rclEb1 m => m.wf
  | .rclEv1 m => m.wf
  | .rclEbCl m => m.wf
  | .rclEvCl m => m.wf
  | .rcrEb1 m => m.wf
  | .rcrEv1 m => m.wf
  | .rcrEbCl m => m.wf
  | .rcrEvCl m => m.wf
  | .shlEb1 m => m.wf
  | .shlEv1 m => m.wf
  | .shlEbCl m => m.wf
  | .shlEvCl m => m.wf
  | .shrEb1 m => m.wf
  | .shrEv1 m => m.wf
  | .shrEbCl m => m.wf
  | .shrEvCl m => m.wf
  | .sarEb1 m => m.wf
  | .sarEv1 m => m.wf
  | .sarEbCl m => m.wf
  | .sarEvCl m => m.wf
  | .pushR16 _ => true
  | .pushSreg _ => true
  | .pushEv m => m.wf
  | .popR16 _ => true
  | .popSreg g => g != .cs
  | .popEv m => m.wf
  | .pushf => true
  | .popf => true
  | .inAlIb _ => true
  | .inAlDx => true
  | .outIbAl _ => true
  | .outDxAl => true
  | .int3 => true
  | .intIb _ => true
  | .into => true
  | .iret => true
  | .clc => true
  | .stc => true
  | .cmc => true
  | .cli => true
  | .sti => true
  | .cld => true
  | .std => true
  | .hlt => true
  | .wait => true
  | .nop => true
  | .esc _ _ m => m.wf
  | .pfxEs => true
  | .pfxCs => true
  | .pfxSs => true
  | .pfxDs => true
  | .pfxLock => true
  | .pfxRepnz => true
  | .pfxRepz => true
  | .invalidOp b => invalidByte b
  | .invalidSub b q m => invalidReg b q && m.wf
  | .invalidForm b q _ => memoryOnly b q

end Sys2Proof
end

