-- ==== Sys2Proof/Decode.lean ====
section
/-! DEFINITION. The decoder (30_encoding.md R120 to R157), total on any bytes, and the encoder written
from the same tables. A decoder answers the instruction or prefix at the head of a byte list and the
bytes that follow it. Every opcode byte has an answer; only a list that ends early has none. -/

namespace Sys2Proof

/-- Why a byte list decodes to nothing. -/
inductive DecodeError where
  /-- the list ends inside an instruction -/
  | truncated
  deriving DecidableEq, Repr

/-- What a decoder answers: the instruction and the bytes after it. -/
abbrev Parsed := Except DecodeError (Instr × List Byte)

/-! ## Fields -/

/-- A word from its low and high byte (20_memory.md R85). -/
def leWord (lo hi : Byte) : Word := hi ++ lo

/-- The low byte of a word. -/
def lowByte (v : Word) : Byte := v.extractLsb' 0 8

/-- The high byte of a word. -/
def highByte (v : Word) : Byte := v.extractLsb' 8 8

/-- A word as stored: low byte first (20_memory.md R85). -/
def leBytes (v : Word) : List Byte := [lowByte v, highByte v]

/-- `sext_16` of a byte (00_scope.md R9). -/
def sext16 (b : Byte) : Word := b.signExtend 16

/-- `zext_16` of a byte (00_scope.md R9). -/
def zext16 (b : Byte) : Word := b.setWidth 16

/-- Word register numbers (30_encoding.md R125). -/
def Reg16.bits : Reg16 → BitVec 3
  | .ax => 0#3
  | .cx => 1#3
  | .dx => 2#3
  | .bx => 3#3
  | .sp => 4#3
  | .bp => 5#3
  | .si => 6#3
  | .di => 7#3

/-- The word register of a number (30_encoding.md R125). -/
def reg16 (q : BitVec 3) : Reg16 :=
  match q.toNat with
  | 0 => .ax
  | 1 => .cx
  | 2 => .dx
  | 3 => .bx
  | 4 => .sp
  | 5 => .bp
  | 6 => .si
  | _ => .di

/-- Byte register numbers (30_encoding.md R126). -/
def Reg8.bits : Reg8 → BitVec 3
  | .al => 0#3
  | .cl => 1#3
  | .dl => 2#3
  | .bl => 3#3
  | .ah => 4#3
  | .ch => 5#3
  | .dh => 6#3
  | .bh => 7#3

/-- The byte register of a number (30_encoding.md R126). -/
def reg8 (q : BitVec 3) : Reg8 :=
  match q.toNat with
  | 0 => .al
  | 1 => .cl
  | 2 => .dl
  | 3 => .bl
  | 4 => .ah
  | 5 => .ch
  | 6 => .dh
  | _ => .bh

/-- Segment register numbers (30_encoding.md R127). -/
def SegReg.bits : SegReg → BitVec 2
  | .es => 0#2
  | .cs => 1#2
  | .ss => 2#2
  | .ds => 3#2

/-- A segment register number in a ModRM reg field (30_encoding.md R127). -/
def SegReg.bits3 (g : SegReg) : BitVec 3 := g.bits.setWidth 3

/-- The rm number of a base and index sum (30_encoding.md R128). -/
def BaseIdx.bits : BaseIdx → BitVec 3
  | .bxSi => 0#3
  | .bxDi => 1#3
  | .bpSi => 2#3
  | .bpDi => 3#3
  | .si => 4#3
  | .di => 5#3
  | .bp => 6#3
  | .bx => 7#3

/-- The base and index sum of an rm number (30_encoding.md R128). -/
def baseIdx (q : BitVec 3) : BaseIdx :=
  match q.toNat with
  | 0 => .bxSi
  | 1 => .bxDi
  | 2 => .bpSi
  | 3 => .bpDi
  | 4 => .si
  | 5 => .di
  | 6 => .bp
  | _ => .bx

/-- The ModRM byte of its three fields (30_encoding.md R121). -/
def modrmByte (mod : BitVec 2) (q rm : BitVec 3) : Byte := mod ++ q ++ rm

/-- The mod field of a ModRM byte (30_encoding.md R121). -/
def modField (b : Byte) : BitVec 2 := b.extractLsb' 6 2

/-- The reg field of a ModRM byte (30_encoding.md R121). -/
def regField (b : Byte) : BitVec 3 := b.extractLsb' 3 3

/-- The rm field of a ModRM byte (30_encoding.md R121). -/
def rmField (b : Byte) : BitVec 3 := b.extractLsb' 0 3

/-! ## Decoding -/

/-- One byte of the stream (`FetchByte`, 30_encoding.md R120). -/
def withByte (bs : List Byte) (k : Byte → List Byte → Parsed) : Parsed :=
  match bs with
  | b :: rest => k b rest
  | [] => .error .truncated

/-- Two bytes of the stream, low byte first (`FetchWord`, 30_encoding.md R120). -/
def withWord (bs : List Byte) (k : Word → List Byte → Parsed) : Parsed :=
  match bs with
  | lo :: hi :: rest => k (leWord lo hi) rest
  | _ => .error .truncated

/-- The ModRM byte with its displacement (30_encoding.md R129, R130): the reg field, the r/m operand
with its register still a number, and the bytes after them. -/
def withModrm (bs : List Byte) (k : BitVec 3 → Rm (BitVec 3) → List Byte → Parsed) : Parsed :=
  withByte bs fun b rest =>
    match (modField b).toNat with
    | 0 =>
      if rmField b = 6#3 then withWord rest fun a rest => k (regField b) (.mem (.direct a)) rest
      else k (regField b) (.mem (.base (baseIdx (rmField b)))) rest
    | 1 => withByte rest fun d rest => k (regField b) (.mem (.disp8 (baseIdx (rmField b)) d)) rest
    | 2 => withWord rest fun d rest => k (regField b) (.mem (.disp16 (baseIdx (rmField b)) d)) rest
    | _ => k (regField b) (.reg (rmField b)) rest

def formEbGb (f : Rm Reg8 → Reg8 → Instr) (bs : List Byte) : Parsed :=
  withModrm bs fun q m rest => .ok (f (m.map reg8) (reg8 q), rest)

def formEvGv (f : Rm Reg16 → Reg16 → Instr) (bs : List Byte) : Parsed :=
  withModrm bs fun q m rest => .ok (f (m.map reg16) (reg16 q), rest)

def formGbEb (f : Reg8 → Rm Reg8 → Instr) (bs : List Byte) : Parsed :=
  withModrm bs fun q m rest => .ok (f (reg8 q) (m.map reg8), rest)

def formGvEv (f : Reg16 → Rm Reg16 → Instr) (bs : List Byte) : Parsed :=
  withModrm bs fun q m rest => .ok (f (reg16 q) (m.map reg16), rest)

def formIb (f : Byte → Instr) (bs : List Byte) : Parsed :=
  withByte bs fun i rest => .ok (f i, rest)

def formIv (f : Word → Instr) (bs : List Byte) : Parsed :=
  withWord bs fun i rest => .ok (f i, rest)

/-- A far pointer in the stream: the offset word, then the segment word (30_encoding.md R138). -/
def formPtr (f : Word → Word → Instr) (bs : List Byte) : Parsed :=
  withWord bs fun off rest => withWord rest fun sg rest => .ok (f off sg, rest)

/-- A memory-only form of opcode `b`; a register operand is invalid (30_encoding.md R152). -/
def memOrInvalid (b : Byte) (q : BitVec 3) (m : Rm (BitVec 3)) (f : MemOp → Instr) : Instr :=
  match m with
  | .mem p => f p
  | .reg n => .invalidForm b q n

def formGvM (b : Byte) (f : Reg16 → MemOp → Instr) (bs : List Byte) : Parsed :=
  withModrm bs fun q m rest => .ok (memOrInvalid b q m (f (reg16 q)), rest)

/-- A group opcode without an immediate. -/
def groupRm (f : BitVec 3 → Rm (BitVec 3) → Instr) (bs : List Byte) : Parsed :=
  withModrm bs fun q m rest => .ok (f q m, rest)

def groupEbIb (f : BitVec 3 → Rm Reg8 → Byte → Instr) (bs : List Byte) : Parsed :=
  withModrm bs fun q m rest => withByte rest fun i rest => .ok (f q (m.map reg8) i, rest)

def groupEvIv (f : BitVec 3 → Rm Reg16 → Word → Instr) (bs : List Byte) : Parsed :=
  withModrm bs fun q m rest => withWord rest fun i rest => .ok (f q (m.map reg16) i, rest)

def groupEvIb (f : BitVec 3 → Rm Reg16 → Byte → Instr) (bs : List Byte) : Parsed :=
  withModrm bs fun q m rest => withByte rest fun i rest => .ok (f q (m.map reg16) i, rest)

/-- Group 1, 0x80 (30_encoding.md R143). -/
def group1EbIb (q : BitVec 3) (m : Rm Reg8) (i : Byte) : Instr :=
  match q.toNat with
  | 0 => .addEbIb m i
  | 1 => .orEbIb m i
  | 2 => .adcEbIb m i
  | 3 => .sbbEbIb m i
  | 4 => .andEbIb m i
  | 5 => .subEbIb m i
  | 6 => .xorEbIb m i
  | _ => .cmpEbIb m i

/-- Group 1, 0x81 (30_encoding.md R143). -/
def group1EvIv (q : BitVec 3) (m : Rm Reg16) (i : Word) : Instr :=
  match q.toNat with
  | 0 => .addEvIv m i
  | 1 => .orEvIv m i
  | 2 => .adcEvIv m i
  | 3 => .sbbEvIv m i
  | 4 => .andEvIv m i
  | 5 => .subEvIv m i
  | 6 => .xorEvIv m i
  | _ => .cmpEvIv m i

/-- Group 1, 0x83 (30_encoding.md R143). -/
def group1EvSb (q : BitVec 3) (m : Rm Reg16) (i : Byte) : Instr :=
  match q.toNat with
  | 0 => .addEvSb m i
  | 1 => .orEvSb m i
  | 2 => .adcEvSb m i
  | 3 => .sbbEvSb m i
  | 4 => .andEvSb m i
  | 5 => .subEvSb m i
  | 6 => .xorEvSb m i
  | _ => .cmpEvSb m i

/-- Group 2, Eb1 (30_encoding.md R144). -/
def group2Eb1 (b : Byte) (q : BitVec 3) (m : Rm (BitVec 3)) : Instr :=
  match q.toNat with
  | 0 => .rolEb1 (m.map reg8)
  | 1 => .rorEb1 (m.map reg8)
  | 2 => .rclEb1 (m.map reg8)
  | 3 => .rcrEb1 (m.map reg8)
  | 4 => .shlEb1 (m.map reg8)
  | 5 => .shrEb1 (m.map reg8)
  | 6 => .invalidSub b q m
  | _ => .sarEb1 (m.map reg8)

/-- Group 2, Ev1 (30_encoding.md R144). -/
def group2Ev1 (b : Byte) (q : BitVec 3) (m : Rm (BitVec 3)) : Instr :=
  match q.toNat with
  | 0 => .rolEv1 (m.map reg16)
  | 1 => .rorEv1 (m.map reg16)
  | 2 => .rclEv1 (m.map reg16)
  | 3 => .rcrEv1 (m.map reg16)
  | 4 => .shlEv1 (m.map reg16)
  | 5 => .shrEv1 (m.map reg16)
  | 6 => .invalidSub b q m
  | _ => .sarEv1 (m.map reg16)

/-- Group 2, EbCl (30_encoding.md R144). -/
def group2EbCl (b : Byte) (q : BitVec 3) (m : Rm (BitVec 3)) : Instr :=
  match q.toNat with
  | 0 => .rolEbCl (m.map reg8)
  | 1 => .rorEbCl (m.map reg8)
  | 2 => .rclEbCl (m.map reg8)
  | 3 => .rcrEbCl (m.map reg8)
  | 4 => .shlEbCl (m.map reg8)
  | 5 => .shrEbCl (m.map reg8)
  | 6 => .invalidSub b q m
  | _ => .sarEbCl (m.map reg8)

/-- Group 2, EvCl (30_encoding.md R144). -/
def group2EvCl (b : Byte) (q : BitVec 3) (m : Rm (BitVec 3)) : Instr :=
  match q.toNat with
  | 0 => .rolEvCl (m.map reg16)
  | 1 => .rorEvCl (m.map reg16)
  | 2 => .rclEvCl (m.map reg16)
  | 3 => .rcrEvCl (m.map reg16)
  | 4 => .shlEvCl (m.map reg16)
  | 5 => .shrEvCl (m.map reg16)
  | 6 => .invalidSub b q m
  | _ => .sarEvCl (m.map reg16)

/-- Group 3, 0xF6 (30_encoding.md R145): only TEST has an immediate. -/
def group3Eb (bs : List Byte) : Parsed :=
  withModrm bs fun q m rest =>
    match q.toNat with
    | 0 => withByte rest fun i rest => .ok (.testEbIb (m.map reg8) i, rest)
    | 1 => .ok (.invalidSub 0xF6#8 q m, rest)
    | 2 => .ok (.notEb (m.map reg8), rest)
    | 3 => .ok (.negEb (m.map reg8), rest)
    | 4 => .ok (.mulEb (m.map reg8), rest)
    | 5 => .ok (.imulEb (m.map reg8), rest)
    | 6 => .ok (.divEb (m.map reg8), rest)
    | _ => .ok (.idivEb (m.map reg8), rest)

/-- Group 3, 0xF7 (30_encoding.md R145): only TEST has an immediate. -/
def group3Ev (bs : List Byte) : Parsed :=
  withModrm bs fun q m rest =>
    match q.toNat with
    | 0 => withWord rest fun i rest => .ok (.testEvIv (m.map reg16) i, rest)
    | 1 => .ok (.invalidSub 0xF7#8 q m, rest)
    | 2 => .ok (.notEv (m.map reg16), rest)
    | 3 => .ok (.negEv (m.map reg16), rest)
    | 4 => .ok (.mulEv (m.map reg16), rest)
    | 5 => .ok (.imulEv (m.map reg16), rest)
    | 6 => .ok (.divEv (m.map reg16), rest)
    | _ => .ok (.idivEv (m.map reg16), rest)

/-- Group 4, 0xFE (30_encoding.md R146). -/
def group4 (q : BitVec 3) (m : Rm (BitVec 3)) : Instr :=
  match q.toNat with
  | 0 => .incEb (m.map reg8)
  | 1 => .decEb (m.map reg8)
  | _ => .invalidSub 0xFE#8 q m

/-- Group 5, 0xFF (30_encoding.md R147). -/
def group5 (bs : List Byte) : Parsed :=
  withModrm bs fun q m rest =>
    match q.toNat with
    | 0 => .ok (.incEv (m.map reg16), rest)
    | 1 => .ok (.decEv (m.map reg16), rest)
    | 2 => .ok (.callEv (m.map reg16), rest)
    | 3 => .ok (memOrInvalid 0xFF#8 q m .callMp, rest)
    | 4 => .ok (.jmpEv (m.map reg16), rest)
    | 5 => .ok (memOrInvalid 0xFF#8 q m .jmpMp, rest)
    | 6 => .ok (.pushEv (m.map reg16), rest)
    | _ => .ok (.invalidSub 0xFF#8 q m, rest)

/-- MOV r/m16, sreg (30_encoding.md R151). -/
def formEwSw (bs : List Byte) : Parsed :=
  withModrm bs fun q m rest =>
    match q.toNat with
    | 0 => .ok (.movEwSw (m.map reg16) .es, rest)
    | 1 => .ok (.movEwSw (m.map reg16) .cs, rest)
    | 2 => .ok (.movEwSw (m.map reg16) .ss, rest)
    | 3 => .ok (.movEwSw (m.map reg16) .ds, rest)
    | _ => .ok (.invalidSub 0x8C#8 q m, rest)

/-- MOV sreg, r/m16; CS cannot be loaded (30_encoding.md R151). -/
def formSwEw (bs : List Byte) : Parsed :=
  withModrm bs fun q m rest =>
    match q.toNat with
    | 0 => .ok (.movSwEw .es (m.map reg16), rest)
    | 2 => .ok (.movSwEw .ss (m.map reg16), rest)
    | 3 => .ok (.movSwEw .ds (m.map reg16), rest)
    | _ => .ok (.invalidSub 0x8E#8 q m, rest)

/-- 0x8F: POP Ev, reg = 0 only (30_encoding.md R148). -/
def group8F (bs : List Byte) : Parsed :=
  withModrm bs fun q m rest =>
    match q.toNat with
    | 0 => .ok (.popEv (m.map reg16), rest)
    | _ => .ok (.invalidSub 0x8F#8 q m, rest)

/-- 0xC6: MOV Eb,Ib, reg = 0 only; an invalid form fetches no immediate (R148, R201). -/
def groupC6 (bs : List Byte) : Parsed :=
  withModrm bs fun q m rest =>
    match q.toNat with
    | 0 => withByte rest fun i rest => .ok (.movEbIb (m.map reg8) i, rest)
    | _ => .ok (.invalidSub 0xC6#8 q m, rest)

/-- 0xC7: MOV Ev,Iv, reg = 0 only; an invalid form fetches no immediate (R148, R201). -/
def groupC7 (bs : List Byte) : Parsed :=
  withModrm bs fun q m rest =>
    match q.toNat with
    | 0 => withWord rest fun i rest => .ok (.movEvIv (m.map reg16) i, rest)
    | _ => .ok (.invalidSub 0xC7#8 q m, rest)

/-- ESC: any ModRM (30_encoding.md R148). -/
def formEsc (k : BitVec 3) (bs : List Byte) : Parsed :=
  withModrm bs fun q m rest => .ok (.esc k q (m.map reg16), rest)

/-! ### The opcode map, a row of sixteen at a time -/

/-- Opcodes 00 to 0F (30_encoding.md R141, R149). -/
def decodeRow0 (lo : Nat) (b : Byte) (bs : List Byte) : Parsed :=
  match lo with
  | 0x0 => formEbGb .addEbGb bs
  | 0x1 => formEvGv .addEvGv bs
  | 0x2 => formGbEb .addGbEb bs
  | 0x3 => formGvEv .addGvEv bs
  | 0x4 => formIb .addAlIb bs
  | 0x5 => formIv .addAxIv bs
  | 0x6 => .ok (.pushSreg .es, bs)
  | 0x7 => .ok (.popSreg .es, bs)
  | 0x8 => formEbGb .orEbGb bs
  | 0x9 => formEvGv .orEvGv bs
  | 0xA => formGbEb .orGbEb bs
  | 0xB => formGvEv .orGvEv bs
  | 0xC => formIb .orAlIb bs
  | 0xD => formIv .orAxIv bs
  | 0xE => .ok (.pushSreg .cs, bs)
  | _ => .ok (.invalidOp b, bs)

/-- Opcodes 10 to 1F (30_encoding.md R141). -/
def decodeRow1 (lo : Nat) (bs : List Byte) : Parsed :=
  match lo with
  | 0x0 => formEbGb .adcEbGb bs
  | 0x1 => formEvGv .adcEvGv bs
  | 0x2 => formGbEb .adcGbEb bs
  | 0x3 => formGvEv .adcGvEv bs
  | 0x4 => formIb .adcAlIb bs
  | 0x5 => formIv .adcAxIv bs
  | 0x6 => .ok (.pushSreg .ss, bs)
  | 0x7 => .ok (.popSreg .ss, bs)
  | 0x8 => formEbGb .sbbEbGb bs
  | 0x9 => formEvGv .sbbEvGv bs
  | 0xA => formGbEb .sbbGbEb bs
  | 0xB => formGvEv .sbbGvEv bs
  | 0xC => formIb .sbbAlIb bs
  | 0xD => formIv .sbbAxIv bs
  | 0xE => .ok (.pushSreg .ds, bs)
  | _ => .ok (.popSreg .ds, bs)

/-- Opcodes 20 to 2F (30_encoding.md R141). -/
def decodeRow2 (lo : Nat) (bs : List Byte) : Parsed :=
  match lo with
  | 0x0 => formEbGb .andEbGb bs
  | 0x1 => formEvGv .andEvGv bs
  | 0x2 => formGbEb .andGbEb bs
  | 0x3 => formGvEv .andGvEv bs
  | 0x4 => formIb .andAlIb bs
  | 0x5 => formIv .andAxIv bs
  | 0x6 => .ok (.pfxEs, bs)
  | 0x7 => .ok (.daa, bs)
  | 0x8 => formEbGb .subEbGb bs
  | 0x9 => formEvGv .subEvGv bs
  | 0xA => formGbEb .subGbEb bs
  | 0xB => formGvEv .subGvEv bs
  | 0xC => formIb .subAlIb bs
  | 0xD => formIv .subAxIv bs
  | 0xE => .ok (.pfxCs, bs)
  | _ => .ok (.das, bs)

/-- Opcodes 30 to 3F (30_encoding.md R141). -/
def decodeRow3 (lo : Nat) (bs : List Byte) : Parsed :=
  match lo with
  | 0x0 => formEbGb .xorEbGb bs
  | 0x1 => formEvGv .xorEvGv bs
  | 0x2 => formGbEb .xorGbEb bs
  | 0x3 => formGvEv .xorGvEv bs
  | 0x4 => formIb .xorAlIb bs
  | 0x5 => formIv .xorAxIv bs
  | 0x6 => .ok (.pfxSs, bs)
  | 0x7 => .ok (.aaa, bs)
  | 0x8 => formEbGb .cmpEbGb bs
  | 0x9 => formEvGv .cmpEvGv bs
  | 0xA => formGbEb .cmpGbEb bs
  | 0xB => formGvEv .cmpGvEv bs
  | 0xC => formIb .cmpAlIb bs
  | 0xD => formIv .cmpAxIv bs
  | 0xE => .ok (.pfxDs, bs)
  | _ => .ok (.aas, bs)

/-- Opcodes 40 to 4F (30_encoding.md R141). -/
def decodeRow4 (lo : Nat) (bs : List Byte) : Parsed :=
  match lo with
  | 0x0 => .ok (.incR16 .ax, bs)
  | 0x1 => .ok (.incR16 .cx, bs)
  | 0x2 => .ok (.incR16 .dx, bs)
  | 0x3 => .ok (.incR16 .bx, bs)
  | 0x4 => .ok (.incR16 .sp, bs)
  | 0x5 => .ok (.incR16 .bp, bs)
  | 0x6 => .ok (.incR16 .si, bs)
  | 0x7 => .ok (.incR16 .di, bs)
  | 0x8 => .ok (.decR16 .ax, bs)
  | 0x9 => .ok (.decR16 .cx, bs)
  | 0xA => .ok (.decR16 .dx, bs)
  | 0xB => .ok (.decR16 .bx, bs)
  | 0xC => .ok (.decR16 .sp, bs)
  | 0xD => .ok (.decR16 .bp, bs)
  | 0xE => .ok (.decR16 .si, bs)
  | _ => .ok (.decR16 .di, bs)

/-- Opcodes 50 to 5F (30_encoding.md R141). -/
def decodeRow5 (lo : Nat) (bs : List Byte) : Parsed :=
  match lo with
  | 0x0 => .ok (.pushR16 .ax, bs)
  | 0x1 => .ok (.pushR16 .cx, bs)
  | 0x2 => .ok (.pushR16 .dx, bs)
  | 0x3 => .ok (.pushR16 .bx, bs)
  | 0x4 => .ok (.pushR16 .sp, bs)
  | 0x5 => .ok (.pushR16 .bp, bs)
  | 0x6 => .ok (.pushR16 .si, bs)
  | 0x7 => .ok (.pushR16 .di, bs)
  | 0x8 => .ok (.popR16 .ax, bs)
  | 0x9 => .ok (.popR16 .cx, bs)
  | 0xA => .ok (.popR16 .dx, bs)
  | 0xB => .ok (.popR16 .bx, bs)
  | 0xC => .ok (.popR16 .sp, bs)
  | 0xD => .ok (.popR16 .bp, bs)
  | 0xE => .ok (.popR16 .si, bs)
  | _ => .ok (.popR16 .di, bs)

/-- Opcodes 70 to 7F (30_encoding.md R141). -/
def decodeRow7 (lo : Nat) (bs : List Byte) : Parsed :=
  match lo with
  | 0x0 => formIb .jo bs
  | 0x1 => formIb .jno bs
  | 0x2 => formIb .jb bs
  | 0x3 => formIb .jae bs
  | 0x4 => formIb .je bs
  | 0x5 => formIb .jne bs
  | 0x6 => formIb .jbe bs
  | 0x7 => formIb .ja bs
  | 0x8 => formIb .js bs
  | 0x9 => formIb .jns bs
  | 0xA => formIb .jp bs
  | 0xB => formIb .jnp bs
  | 0xC => formIb .jl bs
  | 0xD => formIb .jge bs
  | 0xE => formIb .jle bs
  | _ => formIb .jg bs

/-- Opcodes 80 to 8F (30_encoding.md R141, R149). -/
def decodeRow8 (lo : Nat) (b : Byte) (bs : List Byte) : Parsed :=
  match lo with
  | 0x0 => groupEbIb group1EbIb bs
  | 0x1 => groupEvIv group1EvIv bs
  | 0x3 => groupEvIb group1EvSb bs
  | 0x4 => formEbGb .testEbGb bs
  | 0x5 => formEvGv .testEvGv bs
  | 0x6 => formEbGb .xchgEbGb bs
  | 0x7 => formEvGv .xchgEvGv bs
  | 0x8 => formEbGb .movEbGb bs
  | 0x9 => formEvGv .movEvGv bs
  | 0xA => formGbEb .movGbEb bs
  | 0xB => formGvEv .movGvEv bs
  | 0xC => formEwSw bs
  | 0xD => formGvM 0x8D#8 .lea bs
  | 0xE => formSwEw bs
  | 0xF => group8F bs
  | _ => .ok (.invalidOp b, bs)

/-- Opcodes 90 to 9F (30_encoding.md R141). -/
def decodeRow9 (lo : Nat) (bs : List Byte) : Parsed :=
  match lo with
  | 0x0 => .ok (.nop, bs)
  | 0x1 => .ok (.xchgAxR16 .cx, bs)
  | 0x2 => .ok (.xchgAxR16 .dx, bs)
  | 0x3 => .ok (.xchgAxR16 .bx, bs)
  | 0x4 => .ok (.xchgAxR16 .sp, bs)
  | 0x5 => .ok (.xchgAxR16 .bp, bs)
  | 0x6 => .ok (.xchgAxR16 .si, bs)
  | 0x7 => .ok (.xchgAxR16 .di, bs)
  | 0x8 => .ok (.cbw, bs)
  | 0x9 => .ok (.cwd, bs)
  | 0xA => formPtr .callFar bs
  | 0xB => .ok (.wait, bs)
  | 0xC => .ok (.pushf, bs)
  | 0xD => .ok (.popf, bs)
  | 0xE => .ok (.sahf, bs)
  | _ => .ok (.lahf, bs)

/-- Opcodes A0 to AF (30_encoding.md R141). -/
def decodeRowA (lo : Nat) (bs : List Byte) : Parsed :=
  match lo with
  | 0x0 => formIv .movAlOb bs
  | 0x1 => formIv .movAxOv bs
  | 0x2 => formIv .movObAl bs
  | 0x3 => formIv .movOvAx bs
  | 0x4 => .ok (.movsb, bs)
  | 0x5 => .ok (.movsw, bs)
  | 0x6 => .ok (.cmpsb, bs)
  | 0x7 => .ok (.cmpsw, bs)
  | 0x8 => formIb .testAlIb bs
  | 0x9 => formIv .testAxIv bs
  | 0xA => .ok (.stosb, bs)
  | 0xB => .ok (.stosw, bs)
  | 0xC => .ok (.lodsb, bs)
  | 0xD => .ok (.lodsw, bs)
  | 0xE => .ok (.scasb, bs)
  | _ => .ok (.scasw, bs)

/-- Opcodes B0 to BF (30_encoding.md R141). -/
def decodeRowB (lo : Nat) (bs : List Byte) : Parsed :=
  match lo with
  | 0x0 => formIb (.movR8Ib .al) bs
  | 0x1 => formIb (.movR8Ib .cl) bs
  | 0x2 => formIb (.movR8Ib .dl) bs
  | 0x3 => formIb (.movR8Ib .bl) bs
  | 0x4 => formIb (.movR8Ib .ah) bs
  | 0x5 => formIb (.movR8Ib .ch) bs
  | 0x6 => formIb (.movR8Ib .dh) bs
  | 0x7 => formIb (.movR8Ib .bh) bs
  | 0x8 => formIv (.movR16Iv .ax) bs
  | 0x9 => formIv (.movR16Iv .cx) bs
  | 0xA => formIv (.movR16Iv .dx) bs
  | 0xB => formIv (.movR16Iv .bx) bs
  | 0xC => formIv (.movR16Iv .sp) bs
  | 0xD => formIv (.movR16Iv .bp) bs
  | 0xE => formIv (.movR16Iv .si) bs
  | _ => formIv (.movR16Iv .di) bs

/-- Opcodes C0 to CF (30_encoding.md R141, R149). -/
def decodeRowC (lo : Nat) (b : Byte) (bs : List Byte) : Parsed :=
  match lo with
  | 0x2 => formIv .retIw bs
  | 0x3 => .ok (.ret, bs)
  | 0x4 => formGvM 0xC4#8 .les bs
  | 0x5 => formGvM 0xC5#8 .lds bs
  | 0x6 => groupC6 bs
  | 0x7 => groupC7 bs
  | 0xA => formIv .retfIw bs
  | 0xB => .ok (.retf, bs)
  | 0xC => .ok (.int3, bs)
  | 0xD => formIb .intIb bs
  | 0xE => .ok (.into, bs)
  | 0xF => .ok (.iret, bs)
  | _ => .ok (.invalidOp b, bs)

/-- Opcodes D0 to DF (30_encoding.md R141, R149). -/
def decodeRowD (lo : Nat) (b : Byte) (bs : List Byte) : Parsed :=
  match lo with
  | 0x0 => groupRm (group2Eb1 0xD0#8) bs
  | 0x1 => groupRm (group2Ev1 0xD1#8) bs
  | 0x2 => groupRm (group2EbCl 0xD2#8) bs
  | 0x3 => groupRm (group2EvCl 0xD3#8) bs
  | 0x4 => formIb .aam bs
  | 0x5 => formIb .aad bs
  | 0x7 => .ok (.xlat, bs)
  | 0x8 => formEsc 0#3 bs
  | 0x9 => formEsc 1#3 bs
  | 0xA => formEsc 2#3 bs
  | 0xB => formEsc 3#3 bs
  | 0xC => formEsc 4#3 bs
  | 0xD => formEsc 5#3 bs
  | 0xE => formEsc 6#3 bs
  | 0xF => formEsc 7#3 bs
  | _ => .ok (.invalidOp b, bs)

/-- Opcodes E0 to EF (30_encoding.md R141, R149). -/
def decodeRowE (lo : Nat) (b : Byte) (bs : List Byte) : Parsed :=
  match lo with
  | 0x0 => formIb .loopnz bs
  | 0x1 => formIb .loopz bs
  | 0x2 => formIb .loopJb bs
  | 0x3 => formIb .jcxz bs
  | 0x4 => formIb .inAlIb bs
  | 0x6 => formIb .outIbAl bs
  | 0x8 => formIv .callNear bs
  | 0x9 => formIv .jmpNear bs
  | 0xA => formPtr .jmpFar bs
  | 0xB => formIb .jmpShort bs
  | 0xC => .ok (.inAlDx, bs)
  | 0xE => .ok (.outDxAl, bs)
  | _ => .ok (.invalidOp b, bs)

/-- Opcodes F0 to FF (30_encoding.md R141, R149). -/
def decodeRowF (lo : Nat) (b : Byte) (bs : List Byte) : Parsed :=
  match lo with
  | 0x0 => .ok (.pfxLock, bs)
  | 0x2 => .ok (.pfxRepnz, bs)
  | 0x3 => .ok (.pfxRepz, bs)
  | 0x4 => .ok (.hlt, bs)
  | 0x5 => .ok (.cmc, bs)
  | 0x6 => group3Eb bs
  | 0x7 => group3Ev bs
  | 0x8 => .ok (.clc, bs)
  | 0x9 => .ok (.stc, bs)
  | 0xA => .ok (.cli, bs)
  | 0xB => .ok (.sti, bs)
  | 0xC => .ok (.cld, bs)
  | 0xD => .ok (.std, bs)
  | 0xE => groupRm group4 bs
  | 0xF => group5 bs
  | _ => .ok (.invalidOp b, bs)

/-- The decoder: the instruction, prefix or invalid form at the head of a byte list. -/
def decode : List Byte → Parsed
  | [] => .error .truncated
  | b :: bs =>
    match b.toNat / 16 with
    | 0x0 => decodeRow0 (b.toNat % 16) b bs
    | 0x1 => decodeRow1 (b.toNat % 16) bs
    | 0x2 => decodeRow2 (b.toNat % 16) bs
    | 0x3 => decodeRow3 (b.toNat % 16) bs
    | 0x4 => decodeRow4 (b.toNat % 16) bs
    | 0x5 => decodeRow5 (b.toNat % 16) bs
    | 0x6 => .ok (.invalidOp b, bs)
    | 0x7 => decodeRow7 (b.toNat % 16) bs
    | 0x8 => decodeRow8 (b.toNat % 16) b bs
    | 0x9 => decodeRow9 (b.toNat % 16) bs
    | 0xA => decodeRowA (b.toNat % 16) bs
    | 0xB => decodeRowB (b.toNat % 16) bs
    | 0xC => decodeRowC (b.toNat % 16) b bs
    | 0xD => decodeRowD (b.toNat % 16) b bs
    | 0xE => decodeRowE (b.toNat % 16) b bs
    | _ => decodeRowF (b.toNat % 16) b bs

/-! ## Encoding -/

/-- An opcode byte with a register number in its bits 2:0 (30_encoding.md R124). -/
def opReg (base : Byte) (r : BitVec 3) : Byte := base ||| r.setWidth 8

/-- An opcode byte with a segment register number in its bits 4:3 (30_encoding.md R124). -/
def opSreg (base : Byte) (g : BitVec 2) : Byte := base ||| (g.setWidth 8 <<< 3)

/-- The ModRM byte and displacement of a reg field and an r/m operand (30_encoding.md R121, R129). -/
def encModrm (q : BitVec 3) : Rm (BitVec 3) → List Byte
  | .reg n => [modrmByte 3#2 q n]
  | .mem (.base b) => [modrmByte 0#2 q b.bits]
  | .mem (.disp8 b d) => [modrmByte 1#2 q b.bits, d]
  | .mem (.disp16 b d) => modrmByte 2#2 q b.bits :: leBytes d
  | .mem (.direct a) => modrmByte 0#2 q 6#3 :: leBytes a

/-- The bytes of a well-formed instruction (30_encoding.md R122). -/
def encode : Instr → List Byte
  | .addEbGb m r => 0x00#8 :: encModrm r.bits (m.map Reg8.bits)
  | .addEvGv m r => 0x01#8 :: encModrm r.bits (m.map Reg16.bits)
  | .addGbEb r m => 0x02#8 :: encModrm r.bits (m.map Reg8.bits)
  | .addGvEv r m => 0x03#8 :: encModrm r.bits (m.map Reg16.bits)
  | .addAlIb i => [0x04#8, i]
  | .addAxIv i => 0x05#8 :: leBytes i
  | .addEbIb m i => 0x80#8 :: (encModrm 0#3 (m.map Reg8.bits) ++ [i])
  | .addEvIv m i => 0x81#8 :: (encModrm 0#3 (m.map Reg16.bits) ++ leBytes i)
  | .addEvSb m i => 0x83#8 :: (encModrm 0#3 (m.map Reg16.bits) ++ [i])
  | .orEbGb m r => 0x08#8 :: encModrm r.bits (m.map Reg8.bits)
  | .orEvGv m r => 0x09#8 :: encModrm r.bits (m.map Reg16.bits)
  | .orGbEb r m => 0x0A#8 :: encModrm r.bits (m.map Reg8.bits)
  | .orGvEv r m => 0x0B#8 :: encModrm r.bits (m.map Reg16.bits)
  | .orAlIb i => [0x0C#8, i]
  | .orAxIv i => 0x0D#8 :: leBytes i
  | .orEbIb m i => 0x80#8 :: (encModrm 1#3 (m.map Reg8.bits) ++ [i])
  | .orEvIv m i => 0x81#8 :: (encModrm 1#3 (m.map Reg16.bits) ++ leBytes i)
  | .orEvSb m i => 0x83#8 :: (encModrm 1#3 (m.map Reg16.bits) ++ [i])
  | .adcEbGb m r => 0x10#8 :: encModrm r.bits (m.map Reg8.bits)
  | .adcEvGv m r => 0x11#8 :: encModrm r.bits (m.map Reg16.bits)
  | .adcGbEb r m => 0x12#8 :: encModrm r.bits (m.map Reg8.bits)
  | .adcGvEv r m => 0x13#8 :: encModrm r.bits (m.map Reg16.bits)
  | .adcAlIb i => [0x14#8, i]
  | .adcAxIv i => 0x15#8 :: leBytes i
  | .adcEbIb m i => 0x80#8 :: (encModrm 2#3 (m.map Reg8.bits) ++ [i])
  | .adcEvIv m i => 0x81#8 :: (encModrm 2#3 (m.map Reg16.bits) ++ leBytes i)
  | .adcEvSb m i => 0x83#8 :: (encModrm 2#3 (m.map Reg16.bits) ++ [i])
  | .sbbEbGb m r => 0x18#8 :: encModrm r.bits (m.map Reg8.bits)
  | .sbbEvGv m r => 0x19#8 :: encModrm r.bits (m.map Reg16.bits)
  | .sbbGbEb r m => 0x1A#8 :: encModrm r.bits (m.map Reg8.bits)
  | .sbbGvEv r m => 0x1B#8 :: encModrm r.bits (m.map Reg16.bits)
  | .sbbAlIb i => [0x1C#8, i]
  | .sbbAxIv i => 0x1D#8 :: leBytes i
  | .sbbEbIb m i => 0x80#8 :: (encModrm 3#3 (m.map Reg8.bits) ++ [i])
  | .sbbEvIv m i => 0x81#8 :: (encModrm 3#3 (m.map Reg16.bits) ++ leBytes i)
  | .sbbEvSb m i => 0x83#8 :: (encModrm 3#3 (m.map Reg16.bits) ++ [i])
  | .andEbGb m r => 0x20#8 :: encModrm r.bits (m.map Reg8.bits)
  | .andEvGv m r => 0x21#8 :: encModrm r.bits (m.map Reg16.bits)
  | .andGbEb r m => 0x22#8 :: encModrm r.bits (m.map Reg8.bits)
  | .andGvEv r m => 0x23#8 :: encModrm r.bits (m.map Reg16.bits)
  | .andAlIb i => [0x24#8, i]
  | .andAxIv i => 0x25#8 :: leBytes i
  | .andEbIb m i => 0x80#8 :: (encModrm 4#3 (m.map Reg8.bits) ++ [i])
  | .andEvIv m i => 0x81#8 :: (encModrm 4#3 (m.map Reg16.bits) ++ leBytes i)
  | .andEvSb m i => 0x83#8 :: (encModrm 4#3 (m.map Reg16.bits) ++ [i])
  | .subEbGb m r => 0x28#8 :: encModrm r.bits (m.map Reg8.bits)
  | .subEvGv m r => 0x29#8 :: encModrm r.bits (m.map Reg16.bits)
  | .subGbEb r m => 0x2A#8 :: encModrm r.bits (m.map Reg8.bits)
  | .subGvEv r m => 0x2B#8 :: encModrm r.bits (m.map Reg16.bits)
  | .subAlIb i => [0x2C#8, i]
  | .subAxIv i => 0x2D#8 :: leBytes i
  | .subEbIb m i => 0x80#8 :: (encModrm 5#3 (m.map Reg8.bits) ++ [i])
  | .subEvIv m i => 0x81#8 :: (encModrm 5#3 (m.map Reg16.bits) ++ leBytes i)
  | .subEvSb m i => 0x83#8 :: (encModrm 5#3 (m.map Reg16.bits) ++ [i])
  | .xorEbGb m r => 0x30#8 :: encModrm r.bits (m.map Reg8.bits)
  | .xorEvGv m r => 0x31#8 :: encModrm r.bits (m.map Reg16.bits)
  | .xorGbEb r m => 0x32#8 :: encModrm r.bits (m.map Reg8.bits)
  | .xorGvEv r m => 0x33#8 :: encModrm r.bits (m.map Reg16.bits)
  | .xorAlIb i => [0x34#8, i]
  | .xorAxIv i => 0x35#8 :: leBytes i
  | .xorEbIb m i => 0x80#8 :: (encModrm 6#3 (m.map Reg8.bits) ++ [i])
  | .xorEvIv m i => 0x81#8 :: (encModrm 6#3 (m.map Reg16.bits) ++ leBytes i)
  | .xorEvSb m i => 0x83#8 :: (encModrm 6#3 (m.map Reg16.bits) ++ [i])
  | .cmpEbGb m r => 0x38#8 :: encModrm r.bits (m.map Reg8.bits)
  | .cmpEvGv m r => 0x39#8 :: encModrm r.bits (m.map Reg16.bits)
  | .cmpGbEb r m => 0x3A#8 :: encModrm r.bits (m.map Reg8.bits)
  | .cmpGvEv r m => 0x3B#8 :: encModrm r.bits (m.map Reg16.bits)
  | .cmpAlIb i => [0x3C#8, i]
  | .cmpAxIv i => 0x3D#8 :: leBytes i
  | .cmpEbIb m i => 0x80#8 :: (encModrm 7#3 (m.map Reg8.bits) ++ [i])
  | .cmpEvIv m i => 0x81#8 :: (encModrm 7#3 (m.map Reg16.bits) ++ leBytes i)
  | .cmpEvSb m i => 0x83#8 :: (encModrm 7#3 (m.map Reg16.bits) ++ [i])
  | .testEbGb m r => 0x84#8 :: encModrm r.bits (m.map Reg8.bits)
  | .testEvGv m r => 0x85#8 :: encModrm r.bits (m.map Reg16.bits)
  | .testAlIb i => [0xA8#8, i]
  | .testAxIv i => 0xA9#8 :: leBytes i
  | .testEbIb m i => 0xF6#8 :: (encModrm 0#3 (m.map Reg8.bits) ++ [i])
  | .testEvIv m i => 0xF7#8 :: (encModrm 0#3 (m.map Reg16.bits) ++ leBytes i)
  | .notEb m => 0xF6#8 :: encModrm 2#3 (m.map Reg8.bits)
  | .notEv m => 0xF7#8 :: encModrm 2#3 (m.map Reg16.bits)
  | .negEb m => 0xF6#8 :: encModrm 3#3 (m.map Reg8.bits)
  | .negEv m => 0xF7#8 :: encModrm 3#3 (m.map Reg16.bits)
  | .incEb m => 0xFE#8 :: encModrm 0#3 (m.map Reg8.bits)
  | .incEv m => 0xFF#8 :: encModrm 0#3 (m.map Reg16.bits)
  | .incR16 r => [opReg 0x40#8 r.bits]
  | .decEb m => 0xFE#8 :: encModrm 1#3 (m.map Reg8.bits)
  | .decEv m => 0xFF#8 :: encModrm 1#3 (m.map Reg16.bits)
  | .decR16 r => [opReg 0x48#8 r.bits]
  | .movEbGb m r => 0x88#8 :: encModrm r.bits (m.map Reg8.bits)
  | .movEvGv m r => 0x89#8 :: encModrm r.bits (m.map Reg16.bits)
  | .movGbEb r m => 0x8A#8 :: encModrm r.bits (m.map Reg8.bits)
  | .movGvEv r m => 0x8B#8 :: encModrm r.bits (m.map Reg16.bits)
  | .movEbIb m i => 0xC6#8 :: (encModrm 0#3 (m.map Reg8.bits) ++ [i])
  | .movEvIv m i => 0xC7#8 :: (encModrm 0#3 (m.map Reg16.bits) ++ leBytes i)
  | .movR8Ib r i => [opReg 0xB0#8 r.bits, i]
  | .movR16Iv r i => opReg 0xB8#8 r.bits :: leBytes i
  | .movSwEw g m => 0x8E#8 :: encModrm g.bits3 (m.map Reg16.bits)
  | .movEwSw m g => 0x8C#8 :: encModrm g.bits3 (m.map Reg16.bits)
  | .movAlOb a => 0xA0#8 :: leBytes a
  | .movAxOv a => 0xA1#8 :: leBytes a
  | .movObAl a => 0xA2#8 :: leBytes a
  | .movOvAx a => 0xA3#8 :: leBytes a
  | .xchgEbGb m r => 0x86#8 :: encModrm r.bits (m.map Reg8.bits)
  | .xchgEvGv m r => 0x87#8 :: encModrm r.bits (m.map Reg16.bits)
  | .xchgAxR16 r => [opReg 0x90#8 r.bits]
  | .lea r p => 0x8D#8 :: encModrm r.bits (.mem p)
  | .lds r p => 0xC5#8 :: encModrm r.bits (.mem p)
  | .les r p => 0xC4#8 :: encModrm r.bits (.mem p)
  | .xlat => [0xD7#8]
  | .lahf => [0x9F#8]
  | .sahf => [0x9E#8]
  | .cbw => [0x98#8]
  | .cwd => [0x99#8]
  | .mulEb m => 0xF6#8 :: encModrm 4#3 (m.map Reg8.bits)
  | .mulEv m => 0xF7#8 :: encModrm 4#3 (m.map Reg16.bits)
  | .imulEb m => 0xF6#8 :: encModrm 5#3 (m.map Reg8.bits)
  | .imulEv m => 0xF7#8 :: encModrm 5#3 (m.map Reg16.bits)
  | .divEb m => 0xF6#8 :: encModrm 6#3 (m.map Reg8.bits)
  | .divEv m => 0xF7#8 :: encModrm 6#3 (m.map Reg16.bits)
  | .idivEb m => 0xF6#8 :: encModrm 7#3 (m.map Reg8.bits)
  | .idivEv m => 0xF7#8 :: encModrm 7#3 (m.map Reg16.bits)
  | .daa => [0x27#8]
  | .das => [0x2F#8]
  | .aaa => [0x37#8]
  | .aas => [0x3F#8]
  | .aam i => [0xD4#8, i]
  | .aad i => [0xD5#8, i]
  | .jo d => [0x70#8, d]
  | .jno d => [0x71#8, d]
  | .jb d => [0x72#8, d]
  | .jae d => [0x73#8, d]
  | .je d => [0x74#8, d]
  | .jne d => [0x75#8, d]
  | .jbe d => [0x76#8, d]
  | .ja d => [0x77#8, d]
  | .js d => [0x78#8, d]
  | .jns d => [0x79#8, d]
  | .jp d => [0x7A#8, d]
  | .jnp d => [0x7B#8, d]
  | .jl d => [0x7C#8, d]
  | .jge d => [0x7D#8, d]
  | .jle d => [0x7E#8, d]
  | .jg d => [0x7F#8, d]
  | .jmpShort d => [0xEB#8, d]
  | .jmpNear d => 0xE9#8 :: leBytes d
  | .jmpFar off sg => 0xEA#8 :: (leBytes off ++ leBytes sg)
  | .jmpEv m => 0xFF#8 :: encModrm 4#3 (m.map Reg16.bits)
  | .jmpMp p => 0xFF#8 :: encModrm 5#3 (.mem p)
  | .callNear d => 0xE8#8 :: leBytes d
  | .callFar off sg => 0x9A#8 :: (leBytes off ++ leBytes sg)
  | .callEv m => 0xFF#8 :: encModrm 2#3 (m.map Reg16.bits)
  | .callMp p => 0xFF#8 :: encModrm 3#3 (.mem p)
  | .ret => [0xC3#8]
  | .retIw n => 0xC2#8 :: leBytes n
  | .retf => [0xCB#8]
  | .retfIw n => 0xCA#8 :: leBytes n
  | .loopJb d => [0xE2#8, d]
  | .loopz d => [0xE1#8, d]
  | .loopnz d => [0xE0#8, d]
  | .jcxz d => [0xE3#8, d]
  | .movsb => [0xA4#8]
  | .movsw => [0xA5#8]
  | .cmpsb => [0xA6#8]
  | .cmpsw => [0xA7#8]
  | .stosb => [0xAA#8]
  | .stosw => [0xAB#8]
  | .lodsb => [0xAC#8]
  | .lodsw => [0xAD#8]
  | .scasb => [0xAE#8]
  | .scasw => [0xAF#8]
  | .rolEb1 m => 0xD0#8 :: encModrm 0#3 (m.map Reg8.bits)
  | .rolEv1 m => 0xD1#8 :: encModrm 0#3 (m.map Reg16.bits)
  | .rolEbCl m => 0xD2#8 :: encModrm 0#3 (m.map Reg8.bits)
  | .rolEvCl m => 0xD3#8 :: encModrm 0#3 (m.map Reg16.bits)
  | .rorEb1 m => 0xD0#8 :: encModrm 1#3 (m.map Reg8.bits)
  | .rorEv1 m => 0xD1#8 :: encModrm 1#3 (m.map Reg16.bits)
  | .rorEbCl m => 0xD2#8 :: encModrm 1#3 (m.map Reg8.bits)
  | .rorEvCl m => 0xD3#8 :: encModrm 1#3 (m.map Reg16.bits)
  | .rclEb1 m => 0xD0#8 :: encModrm 2#3 (m.map Reg8.bits)
  | .rclEv1 m => 0xD1#8 :: encModrm 2#3 (m.map Reg16.bits)
  | .rclEbCl m => 0xD2#8 :: encModrm 2#3 (m.map Reg8.bits)
  | .rclEvCl m => 0xD3#8 :: encModrm 2#3 (m.map Reg16.bits)
  | .rcrEb1 m => 0xD0#8 :: encModrm 3#3 (m.map Reg8.bits)
  | .rcrEv1 m => 0xD1#8 :: encModrm 3#3 (m.map Reg16.bits)
  | .rcrEbCl m => 0xD2#8 :: encModrm 3#3 (m.map Reg8.bits)
  | .rcrEvCl m => 0xD3#8 :: encModrm 3#3 (m.map Reg16.bits)
  | .shlEb1 m => 0xD0#8 :: encModrm 4#3 (m.map Reg8.bits)
  | .shlEv1 m => 0xD1#8 :: encModrm 4#3 (m.map Reg16.bits)
  | .shlEbCl m => 0xD2#8 :: encModrm 4#3 (m.map Reg8.bits)
  | .shlEvCl m => 0xD3#8 :: encModrm 4#3 (m.map Reg16.bits)
  | .shrEb1 m => 0xD0#8 :: encModrm 5#3 (m.map Reg8.bits)
  | .shrEv1 m => 0xD1#8 :: encModrm 5#3 (m.map Reg16.bits)
  | .shrEbCl m => 0xD2#8 :: encModrm 5#3 (m.map Reg8.bits)
  | .shrEvCl m => 0xD3#8 :: encModrm 5#3 (m.map Reg16.bits)
  | .sarEb1 m => 0xD0#8 :: encModrm 7#3 (m.map Reg8.bits)
  | .sarEv1 m => 0xD1#8 :: encModrm 7#3 (m.map Reg16.bits)
  | .sarEbCl m => 0xD2#8 :: encModrm 7#3 (m.map Reg8.bits)
  | .sarEvCl m => 0xD3#8 :: encModrm 7#3 (m.map Reg16.bits)
  | .pushR16 r => [opReg 0x50#8 r.bits]
  | .pushSreg g => [opSreg 0x06#8 g.bits]
  | .pushEv m => 0xFF#8 :: encModrm 6#3 (m.map Reg16.bits)
  | .popR16 r => [opReg 0x58#8 r.bits]
  | .popSreg g => [opSreg 0x07#8 g.bits]
  | .popEv m => 0x8F#8 :: encModrm 0#3 (m.map Reg16.bits)
  | .pushf => [0x9C#8]
  | .popf => [0x9D#8]
  | .inAlIb i => [0xE4#8, i]
  | .inAlDx => [0xEC#8]
  | .outIbAl i => [0xE6#8, i]
  | .outDxAl => [0xEE#8]
  | .int3 => [0xCC#8]
  | .intIb i => [0xCD#8, i]
  | .into => [0xCE#8]
  | .iret => [0xCF#8]
  | .clc => [0xF8#8]
  | .stc => [0xF9#8]
  | .cmc => [0xF5#8]
  | .cli => [0xFA#8]
  | .sti => [0xFB#8]
  | .cld => [0xFC#8]
  | .std => [0xFD#8]
  | .hlt => [0xF4#8]
  | .wait => [0x9B#8]
  | .nop => [0x90#8]
  | .esc k q m => opReg 0xD8#8 k :: encModrm q (m.map Reg16.bits)
  | .pfxEs => [0x26#8]
  | .pfxCs => [0x2E#8]
  | .pfxSs => [0x36#8]
  | .pfxDs => [0x3E#8]
  | .pfxLock => [0xF0#8]
  | .pfxRepnz => [0xF2#8]
  | .pfxRepz => [0xF3#8]
  | .invalidOp b => [b]
  | .invalidSub b q m => b :: encModrm q m
  | .invalidForm b q n => b :: encModrm q (.reg n)

/-! ## The table's numbering -/

/-- The first bytes of an instruction whose bits are `w` in the numbering of opcode_table.json. The
table's key is `(opcode << 8) | modrm` (30_encoding.md R157), so the opcode byte is bits 15:8 and the
byte after it bits 7:0; bytes after these two count on above bit 15 (log 13). -/
def tableBytes (nbits w : Nat) : List Byte :=
  let byte (k : Nat) : Byte := BitVec.ofNat 8 (w / 2 ^ (8 * k))
  if nbits ≤ 8 then [byte 0, 0, 0, 0, 0, 0, 0]
  else
    let more (k : Nat) : Byte := if 8 * k < nbits then byte k else 0
    [byte 1, byte 0, more 2, more 3, more 4, more 5, more 6]

/-- The instruction the decoder reads from a table word, the bits above `nbits` being 0. -/
def decodeTableWord (nbits w : Nat) : Option Instr :=
  match decode (tableBytes nbits w) with
  | .ok (i, _) => some i
  | .error _ => none

end Sys2Proof
end

