-- ==== Sys2Proof/Machine/Params.lean ====
section
/-! DEFINITION. The default values of the named parameters (00_scope.md R7). -/

namespace Sys2Proof.Machine

/-- The defaults of 00_scope.md R7 (logs 7, 10). -/
def defaultParams : Params where
  flagsForcedOnes := 0xF002#16
  singleStep := false
  afMode := .intel
  idivAcceptMin := true
  notSetsFlags := true
  undefFlags := .draw

end Sys2Proof.Machine
end

