-- ==== Sys2Proof/Machine/State.lean ====
section
/-! DEFINITION. The state of the core and of the collaborators it consults, as plain data, the reasons
a step can stop, and the state after reset (10_state.md, 70_reset_and_hazards.md R700). -/

namespace Sys2Proof.Machine

/-- The eight general registers (10_state.md R30). -/
structure Regs where
  ax : Word
  bx : Word
  cx : Word
  dx : Word
  sp : Word
  bp : Word
  si : Word
  di : Word
  deriving DecidableEq, Repr

/-- The four segment registers (10_state.md R34). -/
structure SegRegs where
  cs : Word
  ds : Word
  es : Word
  ss : Word
  deriving DecidableEq, Repr

/-- The nine flags, stored as nine booleans (10_state.md R37, R39). -/
structure Flags where
  /-- CF, carry -/
  cf : Bool
  /-- PF, parity -/
  pf : Bool
  /-- AF, adjust -/
  af : Bool
  /-- ZF, zero -/
  zf : Bool
  /-- SF, sign -/
  sf : Bool
  /-- TF, trap -/
  tf : Bool
  /-- IF, interrupt enable -/
  ief : Bool
  /-- DF, direction -/
  df : Bool
  /-- OF, overflow -/
  ovf : Bool
  deriving DecidableEq, Repr

/-- The repeat prefix in force (10_state.md R49). -/
inductive Rep where
  | none
  | repz
  | repnz
  deriving DecidableEq, Repr

/-- The two fatal errors (60_exceptions.md R630, R631). -/
inductive FaultKind where
  | invalidOpcode
  | unsupportedPrefixCombination
  deriving DecidableEq, Repr

/-- The record a fatal error leaves (10_state.md R52, 60_exceptions.md R632). -/
structure FaultRecord where
  kind : FaultKind
  opcode : Byte
  modrm : Option Byte
  cs : Word
  ip : Word
  deriving DecidableEq, Repr

/-! ## The bus -/

/-- One call of the bus: an access to memory or to port space, with the value moved (20_memory.md R80). -/
inductive BusCall where
  /-- `mem_read_byte` -/
  | readByte (pa : PAddr) (v : Byte)
  /-- `mem_read_word` -/
  | readWord (pa : PAddr) (v : Word)
  /-- `mem_write_byte` -/
  | writeByte (pa : PAddr) (v : Byte)
  /-- `mem_write_word` -/
  | writeWord (pa : PAddr) (v : Word)
  /-- `io_read_byte` -/
  | ioRead (port : Word) (v : Byte)
  /-- `io_write_byte` -/
  | ioWrite (port : Word) (v : Byte)
  deriving DecidableEq, Repr

/-- What stands behind an address (20_memory.md R84, R86, R94). -/
inductive BusKind where
  /-- memory that behaves as RAM: a read answers the latest write -/
  | ram
  /-- memory that a write does not change -/
  | rom
  /-- a device's registers or an unmapped region: what a read answers is the bus's -/
  | device
  deriving DecidableEq, Repr

/-- A range of addresses that the platform gives a kind (20_memory.md R94; log 3). -/
structure BusWindow where
  base : Nat
  size : Nat
  kind : BusKind
  deriving DecidableEq, Repr

/-- The bus collaborator: memory, the platform's map of it, the answers it has ready and the calls made of it
(10_state.md R53, 20_memory.md R80; logs 3, 5). -/
structure Bus where
  /-- memory: (address, byte) pairs, addresses rising; an unlisted address holds no known byte (log 3) -/
  mem : List Host.Cell
  /-- the platform's map: the first window that holds an address gives its kind, RAM where none does (log 3) -/
  windows : List BusWindow
  /-- MODEL. The answers ready for the next reads of bytes that no memory holds, oldest first (log 3) -/
  memIn : List Byte
  /-- MODEL. The answers ready for the next port reads, oldest first (log 5) -/
  portIn : List Byte
  /-- MODEL. Every call made, newest first (20_memory.md R93; log 5) -/
  calls : List BusCall
  /-- MODEL. How many answers were free values (logs 3, 5) -/
  draws : Nat
  deriving DecidableEq, Repr

/-- The machine. -/
structure State where
  /-- AX to DI (10_state.md R30) -/
  regs : Regs
  /-- CS, DS, ES, SS (10_state.md R34) -/
  segs : SegRegs
  /-- IP (10_state.md R36) -/
  ip : Word
  /-- the flags (10_state.md R37) -/
  flags : Flags
  /-- `seg_override` (10_state.md R49); `none` is the spec's none -/
  segOverride : Option SegReg
  /-- `rep` (10_state.md R49) -/
  rep : Rep
  /-- `lock` (10_state.md R49) -/
  lock : Bool
  /-- `op_cs`: CS when the opcode byte was read (60_exceptions.md R600) -/
  opCs : Word
  /-- `op_ip`: IP of the opcode byte (60_exceptions.md R600) -/
  opIp : Word
  /-- `halted` (10_state.md R51) -/
  halted : Bool
  /-- `fault` (10_state.md R52) -/
  faultRec : Option FaultRecord
  /-- the interrupt controller's pending vectors, highest priority first (60_exceptions.md R610, log 4) -/
  irq : List Byte
  /-- memory and ports, behind the bus (10_state.md R53, 20_memory.md R80) -/
  bus : Bus
  /-- MODEL. How many undefined flags have been drawn (log 6) -/
  draws : Nat
  /-- MODEL. The named parameters, never written by a step (00_scope.md R7, log 7) -/
  params : Params
  /-- MODEL. Whether the host has called `install_bus` (70_reset_and_hazards.md R700, log 8) -/
  busInstalled : Bool
  deriving DecidableEq, Repr

/-- Reasons the machine stops with a fault. -/
inductive Fault where
  /-- Raised by `step` when it has read 65536 prefix bytes, which is every byte of CS from IP on: the spec's
  fetch never returns (30_encoding.md R140, D39). Safe: the model stops where the hardware hangs (log 14). -/
  | endlessPrefixes
  deriving DecidableEq, Repr

/-- Reasons the machine has no step. -/
inductive Refusal where
  /-- Raised by `exec` for an instruction that has no meaning yet. Safe. -/
  | notModelled (mnemonic : String)
  /-- Raised by `step` when `faultRec` holds a record: a faulted core takes no step
  (60_exceptions.md R633). Safe: the spec says so. -/
  | faulted
  /-- Raised by `step` before `install_bus` (70_reset_and_hazards.md R700). Safe: the spec says so. -/
  | busNotInstalled
  /-- Raised by `step` if six bytes did not decode; they always do (Obligations.SixBytesAlwaysDecode).
  Safe: it is never reached. -/
  | undecoded
  deriving DecidableEq, Repr

/-- What a meaning answers. -/
abbrev Result := Host.Outcome State Fault Refusal

/-- All general registers zero (log 1). -/
def Regs.zero : Regs := ⟨0, 0, 0, 0, 0, 0, 0, 0⟩

/-- All flags clear (10_state.md R54). -/
def Flags.clear : Flags := ⟨false, false, false, false, false, false, false, false, false⟩

/-- A bus of which nothing is known: no byte of memory, no window, no answer ready, no call made (logs 3, 5). -/
def Bus.empty : Bus where
  mem := []
  windows := []
  memIn := []
  portIn := []
  calls := []
  draws := 0

/-- The state after construction with given general registers, which the spec leaves open
(10_state.md R54, `P_RESET_GPR`), the bus installed (log 8). -/
def State.resetWith (gpr : Regs) : State where
  regs := gpr
  segs := { cs := 0xFFFF, ds := 0, es := 0, ss := 0 }
  ip := 0
  flags := Flags.clear
  segOverride := none
  rep := .none
  lock := false
  opCs := 0
  opIp := 0
  halted := false
  faultRec := none
  irq := []
  bus := Bus.empty
  draws := 0
  params := defaultParams
  busInstalled := true

/-- The machine right after reset (10_state.md R54, 70_reset_and_hazards.md R700); the general
registers, which the spec leaves open, are zero (log 1). -/
def State.reset : State := State.resetWith Regs.zero

end Sys2Proof.Machine
end

