-- ==== Sys2Proof/Machine/Flags.lean ====
section
/-! DEFINITION. Every flag computation of the spec (10_state.md R37 to R48; 41_arith_logic.md R251 to
R253; 43_control_transfer.md R341; 45_shift_rotate.md R421). -/

namespace Sys2Proof.Machine

/-! ## The packed value -/

/-- A flag as a word with that one bit at position `k`. -/
def flagBit (b : Bool) (k : Nat) : Word := if b then 1#16 <<< k else 0#16

/-- The packed value, read (10_state.md R40). -/
def Flags.pack (f : Flags) (forced : Word) : Word :=
  forced ||| flagBit f.cf 0 ||| flagBit f.pf 2 ||| flagBit f.af 4 ||| flagBit f.zf 6 ||| flagBit f.sf 7
    ||| flagBit f.tf 8 ||| flagBit f.ief 9 ||| flagBit f.df 10 ||| flagBit f.ovf 11

/-- The packed value, written: all nine booleans, the reserved bits ignored (10_state.md R41). -/
def flagsOfPacked (v : Word) : Flags where
  cf := v.getLsbD 0
  pf := v.getLsbD 2
  af := v.getLsbD 4
  zf := v.getLsbD 6
  sf := v.getLsbD 7
  tf := v.getLsbD 8
  ief := v.getLsbD 9
  df := v.getLsbD 10
  ovf := v.getLsbD 11

/-! ## Results -/

/-- The number of 1 bits among the low 8 bits of `v` is even (10_state.md R42). -/
def evenParity {w : Nat} (v : BitVec w) : Bool :=
  !(v.getLsbD 0 ^^ v.getLsbD 1 ^^ v.getLsbD 2 ^^ v.getLsbD 3 ^^ v.getLsbD 4 ^^ v.getLsbD 5
    ^^ v.getLsbD 6 ^^ v.getLsbD 7)

/-- `SetSZP` (10_state.md R45): ZF, SF and PF from a result of width `w`. -/
def Flags.setSZP {w : Nat} (f : Flags) (r : BitVec w) : Flags :=
  { f with zf := r == 0, sf := r.msb, pf := evenParity r }

/-- `set_from_alu_result` (10_state.md R42) for an unbounded result of width `w`. -/
def Flags.setFromAlu (f : Flags) (w : Nat) (raw : Int) (updateCarry : Bool) : Flags :=
  let g := f.setSZP (BitVec.ofInt w raw)
  if updateCarry then { g with cf := decide (raw > 2 ^ w - 1) } else g

/-- `clear_logical` (10_state.md R43). -/
def Flags.clearLogical (f : Flags) : Flags := { f with cf := false, ovf := false }

/-- AF of an addition or subtraction: the carry or borrow out of bit 3 (10_state.md R47). `r` is the
result reduced to the width, which has bit 4 of the unbounded one. -/
def adjustCarry {w : Nat} (a b r : BitVec w) : Bool := ((a ^^^ b ^^^ r) &&& 0x10#w) != 0

/-- AF as `P_AF_MODE` has it (10_state.md R47). -/
def Flags.setAdjust {w : Nat} (f : Flags) (mode : AfMode) (a b r : BitVec w) : Flags :=
  match mode with
  | .intel => { f with af := adjustCarry a b r }
  | .unchanged => f

/-! ## The addition, subtraction and logic cores -/

/-- The unbounded sum of AddCore (41_arith_logic.md R251). -/
def addRaw {w : Nat} (a b : BitVec w) (cin : Bool) : Int := (a.toNat : Int) + b.toNat + cin.toNat

/-- The result of AddCore (41_arith_logic.md R251). -/
def addResult {w : Nat} (a b : BitVec w) (cin : Bool) : BitVec w := BitVec.ofInt w (addRaw a b cin)

/-- The flags of AddCore (41_arith_logic.md R251). -/
def addFlags {w : Nat} (mode : AfMode) (a b : BitVec w) (cin : Bool) (f : Flags) : Flags :=
  let r := addResult a b cin
  let g := f.setFromAlu w (addRaw a b cin) true
  let g := { g with ovf := (a.msb == b.msb) && (r.msb != a.msb) }
  g.setAdjust mode a b r

/-- The unbounded difference of SubCore (41_arith_logic.md R252). -/
def subRaw {w : Nat} (a b : BitVec w) (cin : Bool) : Int := (a.toNat : Int) - b.toNat - cin.toNat

/-- The result of SubCore (41_arith_logic.md R252). -/
def subResult {w : Nat} (a b : BitVec w) (cin : Bool) : BitVec w := BitVec.ofInt w (subRaw a b cin)

/-- The flags of SubCore (41_arith_logic.md R252); CF is the exact unsigned borrow (10_state.md R46,
D13). -/
def subFlags {w : Nat} (mode : AfMode) (a b : BitVec w) (cin : Bool) (f : Flags) : Flags :=
  let r := subResult a b cin
  let g := f.setFromAlu w (subRaw a b cin) false
  let g := { g with
    cf := decide (subRaw a b cin < 0)
    ovf := (a.msb != b.msb) && (r.msb == b.msb) }
  g.setAdjust mode a b r

/-- The flags of LogicCore (41_arith_logic.md R253); AF is not written. -/
def logicFlags {w : Nat} (r : BitVec w) (f : Flags) : Flags := (f.setSZP r).clearLogical

/-! ## The eight ALU operations -/

/-- The operations of the ALU block and group 1, in the order of their numbers
(30_encoding.md R142, R143). -/
inductive AluOp where
  | add | or | adc | sbb | and | sub | xor | cmp
  deriving DecidableEq, Repr

/-- The value an ALU operation computes (41_arith_logic.md R254 to R261). -/
def AluOp.result {w : Nat} (op : AluOp) (a b : BitVec w) (cf : Bool) : BitVec w :=
  match op with
  | .add => addResult a b false
  | .or => a ||| b
  | .adc => addResult a b cf
  | .sbb => subResult a b cf
  | .and => a &&& b
  | .sub => subResult a b false
  | .xor => a ^^^ b
  | .cmp => subResult a b false

/-- The flags an ALU operation leaves (41_arith_logic.md R254 to R261). -/
def AluOp.flags {w : Nat} (op : AluOp) (mode : AfMode) (a b : BitVec w) (f : Flags) : Flags :=
  match op with
  | .add => addFlags mode a b false f
  | .or => logicFlags (a ||| b) f
  | .adc => addFlags mode a b f.cf f
  | .sbb => subFlags mode a b f.cf f
  | .and => logicFlags (a &&& b) f
  | .sub => subFlags mode a b false f
  | .xor => logicFlags (a ^^^ b) f
  | .cmp => subFlags mode a b false f

/-- CMP alone writes no result back (41_arith_logic.md R250, R258). -/
def AluOp.writesBack (op : AluOp) : Bool := op != .cmp

/-- The flags of INC: those of adding 1, with CF kept (41_arith_logic.md R266, R267). -/
def incFlags {w : Nat} (mode : AfMode) (a : BitVec w) (f : Flags) : Flags :=
  { addFlags mode a 1#w false f with cf := f.cf }

/-- The flags of DEC: those of subtracting 1, with CF kept (41_arith_logic.md R268, R269). -/
def decFlags {w : Nat} (mode : AfMode) (a : BitVec w) (f : Flags) : Flags :=
  { subFlags mode a 1#w false f with cf := f.cf }

/-! ## Conditions -/

/-- The condition codes of Jcc (43_control_transfer.md R341). -/
inductive Cond where
  | o | no | b | ae | e | ne | be | a | s | ns | p | np | l | ge | le | g
  deriving DecidableEq, Repr

/-- When a condition holds (43_control_transfer.md R341). -/
def Cond.holds (c : Cond) (f : Flags) : Bool :=
  match c with
  | .o => f.ovf
  | .no => !f.ovf
  | .b => f.cf
  | .ae => !f.cf
  | .e => f.zf
  | .ne => !f.zf
  | .be => f.cf || f.zf
  | .a => !f.cf && !f.zf
  | .s => f.sf
  | .ns => !f.sf
  | .p => f.pf
  | .np => !f.pf
  | .l => f.sf != f.ovf
  | .ge => f.sf == f.ovf
  | .le => f.zf || (f.sf != f.ovf)
  | .g => !f.zf && (f.sf == f.ovf)

/-! ## Shifts and rotates -/

/-- The operations of group 2 (30_encoding.md R144). -/
inductive ShiftOp where
  | rol | ror | rcl | rcr | shl | shr | sar
  deriving DecidableEq, Repr

/-- A width's bit pattern that is `b` in its lowest bit and 0 elsewhere. -/
def bitLow (w : Nat) (b : Bool) : BitVec w := BitVec.ofNat w b.toNat

/-- A width's bit pattern that is `b` in its highest bit and 0 elsewhere. -/
def bitHigh (w : Nat) (b : Bool) : BitVec w := bitLow w b <<< (w - 1)

/-- One step of a shift or rotate: the new value and the new CF (45_shift_rotate.md R423 to R429). -/
def ShiftOp.step {w : Nat} (op : ShiftOp) (v : BitVec w) (cf : Bool) : BitVec w × Bool :=
  match op with
  | .rol => ((v <<< 1) ||| bitLow w v.msb, v.msb)
  | .ror => ((v >>> 1) ||| bitHigh w (v.getLsbD 0), v.getLsbD 0)
  | .rcl => ((v <<< 1) ||| bitLow w cf, v.msb)
  | .rcr => ((v >>> 1) ||| bitHigh w cf, v.getLsbD 0)
  | .shl => (v <<< 1, v.msb)
  | .shr => (v >>> 1, v.getLsbD 0)
  | .sar => ((v >>> 1) ||| bitHigh w v.msb, v.getLsbD 0)

/-- `n` steps of a shift or rotate (45_shift_rotate.md R420). -/
def ShiftOp.iter {w : Nat} (op : ShiftOp) : Nat → BitVec w × Bool → BitVec w × Bool
  | 0, x => x
  | n + 1, x => op.iter n (op.step x.1 x.2)

/-- OF of a count-1 shift or rotate of `v0` to `v` with new carry `cf`
(45_shift_rotate.md R421, R423 to R429). -/
def ShiftOp.of1 {w : Nat} (op : ShiftOp) (v0 v : BitVec w) (cf : Bool) : Bool :=
  match op with
  | .rol => v.msb ^^ cf
  | .ror => v.getLsbD (w - 1) ^^ v.getLsbD (w - 2)
  | .rcl => v.msb ^^ cf
  | .rcr => v.getLsbD (w - 1) ^^ v.getLsbD (w - 2)
  | .shl => v.msb != v0.msb
  | .shr => v0.msb
  | .sar => false

/-- Shifts write SF, ZF, PF and leave AF undefined; rotates do neither (45_shift_rotate.md R422). -/
def ShiftOp.isShift (op : ShiftOp) : Bool :=
  match op with
  | .shl | .shr | .sar => true
  | .rol | .ror | .rcl | .rcr => false

/-! ## Flags by name -/

/-- The nine flags by name, for undefined flags and host moves. -/
inductive FlagName where
  | cf | pf | af | zf | sf | tf | ief | df | ovf
  deriving DecidableEq, Repr

/-- One flag set to a value. -/
def Flags.set (f : Flags) (n : FlagName) (b : Bool) : Flags :=
  match n with
  | .cf => { f with cf := b }
  | .pf => { f with pf := b }
  | .af => { f with af := b }
  | .zf => { f with zf := b }
  | .sf => { f with sf := b }
  | .tf => { f with tf := b }
  | .ief => { f with ief := b }
  | .df => { f with df := b }
  | .ovf => { f with ovf := b }

/-- One flag's value. -/
def Flags.get (f : Flags) (n : FlagName) : Bool :=
  match n with
  | .cf => f.cf
  | .pf => f.pf
  | .af => f.af
  | .zf => f.zf
  | .sf => f.sf
  | .tf => f.tf
  | .ief => f.ief
  | .df => f.df
  | .ovf => f.ovf

end Sys2Proof.Machine
end

