-- ==== Sys2Proof/Machine/Ops.lean ====
section
/-! DEFINITION. The named operations over memory and the bus, registers, the stack, ports and free values, and
interrupt entry and return, each written once (20_memory.md; 10_state.md; 46_stack.md R450, R451;
60_exceptions.md R620, R630 to R632). -/

namespace Sys2Proof.Machine

/-! ## Memory -/

/-- `phys(seg, off)` (20_memory.md R81); 20-bit arithmetic wraps. -/
def phys (seg off : Word) : PAddr := (seg.setWidth 20 <<< 4) + off.setWidth 20

/-- The byte a memory lists for an address; none for an address it does not list (log 3). -/
def memFind : List Host.Cell → Nat → Option Byte
  | [], _ => none
  | c :: cs, a => if c.1 = a then some c.2 else memFind cs a

/-- The memory with one byte written, in canonical form when it was. -/
def memWrite : List Host.Cell → Nat → Byte → List Host.Cell
  | [], a, v => [(a, v)]
  | c :: cs, a, v =>
    if a < c.1 then (a, v) :: c :: cs else if a = c.1 then (a, v) :: cs else c :: memWrite cs a v

/-- Every cell lies at `lo` or above, and addresses strictly rise and stay below 2^20. -/
def memWfFrom : Nat → List Host.Cell → Bool
  | _, [] => true
  | lo, c :: cs => decide (lo ≤ c.1) && decide (c.1 < 2 ^ 20) && memWfFrom (c.1 + 1) cs

/-- The canonical form of a memory. -/
def memWf (m : List Host.Cell) : Bool := memWfFrom 0 m

/-! ## The bus -/

/-- The kind a map gives an address: that of the first window that holds it, RAM where none does (log 3). -/
def kindIn : List BusWindow → Nat → BusKind
  | [], _ => .ram
  | w :: ws, a => if w.base ≤ a ∧ a < w.base + w.size then w.kind else kindIn ws a

def Bus.kindAt (b : Bus) (pa : PAddr) : BusKind := kindIn b.windows pa.toNat

/-- The byte memory is known to hold at an address: none where nothing put one there, and none behind a device
window (20_memory.md R84, R86). -/
def Bus.memByte (b : Bus) (pa : PAddr) : Option Byte :=
  if b.kindAt pa = .device then none else memFind b.mem pa.toNat

/-- The bus's answer to a read of a byte that no memory holds: the host's next answer, else a free value
(20_memory.md R80, D32; log 3). -/
def Bus.oracle (b : Bus) : Byte :=
  match b.memIn with
  | v :: _ => v
  | [] => Config.freeMemByte b.draws

/-- The bus's answer to the next read of a byte (20_memory.md R80). -/
def Bus.answer (b : Bus) (pa : PAddr) : Byte := (b.memByte pa).getD b.oracle

/-- The bus after it has answered for a byte: an answer no memory gave is used up. -/
def Bus.answered (b : Bus) (pa : PAddr) : Bus :=
  { b with
    memIn := if (b.memByte pa).isSome then b.memIn else b.memIn.tail
    draws := if (b.memByte pa).isSome || !b.memIn.isEmpty then b.draws else b.draws + 1 }

/-- The bus's answer to the next read of a word: the byte at the address, then the byte at the next physical
address (20_memory.md R80, R82). -/
def Bus.wordAnswer (b : Bus) (pa : PAddr) : Word := leWord (b.answer pa) ((b.answered pa).answer (pa + 1))

/-- A byte put at an address: RAM keeps it, anything else is unchanged (20_memory.md R86). -/
def Bus.store (b : Bus) (pa : PAddr) (v : Byte) : Bus :=
  { b with mem := if b.kindAt pa = .ram then memWrite b.mem pa.toNat v else b.mem }

/-- A call noted (20_memory.md R93). -/
def Bus.note (b : Bus) (c : BusCall) : Bus := { b with calls := c :: b.calls }

/-- The canonical form of the bus's memory, with no cell behind a device window (log 3). -/
def Bus.wf (b : Bus) : Bool := memWf b.mem && b.mem.all fun c => kindIn b.windows c.1 != .device

/-- What stands behind an address. -/
def State.kindAt (s : State) (pa : PAddr) : BusKind := s.bus.kindAt pa

/-- The byte memory is known to hold at an address. -/
def State.memByte (s : State) (pa : PAddr) : Option Byte := s.bus.memByte pa

/-- What `mem_read_byte` answers (20_memory.md R80). -/
def State.readByte (s : State) (pa : PAddr) : Byte := s.bus.answer pa

/-- The state after `mem_read_byte` (20_memory.md R80, R93). -/
def State.afterReadByte (s : State) (pa : PAddr) : State :=
  { s with bus := (s.bus.answered pa).note (.readByte pa (s.readByte pa)) }

/-- What `mem_read_word` answers (20_memory.md R80, R82). -/
def State.readWord (s : State) (pa : PAddr) : Word := s.bus.wordAnswer pa

/-- The state after `mem_read_word`, one call (20_memory.md R80, R90, R93). -/
def State.afterReadWord (s : State) (pa : PAddr) : State :=
  { s with bus := ((s.bus.answered pa).answered (pa + 1)).note (.readWord pa (s.readWord pa)) }

/-- `mem_write_byte` (20_memory.md R80). -/
def State.writeByte (s : State) (pa : PAddr) (v : Byte) : State :=
  { s with bus := (s.bus.store pa v).note (.writeByte pa v) }

/-- `mem_write_word`, one call: the low byte at the address, the high byte at the next physical address
(20_memory.md R80, R82). -/
def State.writeWord (s : State) (pa : PAddr) (v : Word) : State :=
  { s with bus := ((s.bus.store pa (lowByte v)).store (pa + 1) (highByte v)).note (.writeWord pa v) }

/-! ## Registers -/

/-- `r16[i]` (10_state.md R30, 30_encoding.md R125). -/
def Regs.get (g : Regs) (r : Reg16) : Word :=
  match r with
  | .ax => g.ax
  | .cx => g.cx
  | .dx => g.dx
  | .bx => g.bx
  | .sp => g.sp
  | .bp => g.bp
  | .si => g.si
  | .di => g.di

/-- `r16[i] <- v` (10_state.md R30). -/
def Regs.set (g : Regs) (r : Reg16) (v : Word) : Regs :=
  match r with
  | .ax => { g with ax := v }
  | .cx => { g with cx := v }
  | .dx => { g with dx := v }
  | .bx => { g with bx := v }
  | .sp => { g with sp := v }
  | .bp => { g with bp := v }
  | .si => { g with si := v }
  | .di => { g with di := v }

/-- The word register a byte register is half of (10_state.md R31). -/
def parentReg (r : Reg8) : Reg16 :=
  match r with
  | .al | .ah => .ax
  | .cl | .ch => .cx
  | .dl | .dh => .dx
  | .bl | .bh => .bx

/-- Whether a byte register is the high half (10_state.md R31). -/
def isHighHalf (r : Reg8) : Bool :=
  match r with
  | .al | .cl | .dl | .bl => false
  | .ah | .ch | .dh | .bh => true

/-- `r8[i]` (10_state.md R31, 30_encoding.md R126). -/
def Regs.get8 (g : Regs) (r : Reg8) : Byte :=
  if isHighHalf r then highByte (g.get (parentReg r)) else lowByte (g.get (parentReg r))

/-- `r8[i] <- v`: the other half is unchanged (10_state.md R31). -/
def Regs.set8 (g : Regs) (r : Reg8) (v : Byte) : Regs :=
  let old := g.get (parentReg r)
  g.set (parentReg r) (if isHighHalf r then leWord (lowByte old) v else leWord v (highByte old))

/-- A segment register (10_state.md R34). -/
def SegRegs.get (g : SegRegs) (r : SegReg) : Word :=
  match r with
  | .es => g.es
  | .cs => g.cs
  | .ss => g.ss
  | .ds => g.ds

/-- A segment register written (10_state.md R34). -/
def SegRegs.set (g : SegRegs) (r : SegReg) (v : Word) : SegRegs :=
  match r with
  | .es => { g with es := v }
  | .cs => { g with cs := v }
  | .ss => { g with ss := v }
  | .ds => { g with ds := v }

def State.r16 (s : State) (r : Reg16) : Word := s.regs.get r
def State.r8 (s : State) (r : Reg8) : Byte := s.regs.get8 r
def State.sreg (s : State) (r : SegReg) : Word := s.segs.get r
def State.setR16 (s : State) (r : Reg16) (v : Word) : State := { s with regs := s.regs.set r v }
def State.setR8 (s : State) (r : Reg8) (v : Byte) : State := { s with regs := s.regs.set8 r v }
def State.setSreg (s : State) (r : SegReg) (v : Word) : State := { s with segs := s.segs.set r v }
def State.setIp (s : State) (v : Word) : State := { s with ip := v }
def State.setFlags (s : State) (f : Flags) : State := { s with flags := f }

/-- The packed flags (10_state.md R40). -/
def State.packed (s : State) : Word := s.flags.pack s.params.flagsForcedOnes

/-! ## Free values -/

/-- One flag left undefined (10_state.md R48): a free value under `P_UNDEF_FLAGS = draw`, kept under
`unchanged`. -/
def State.undefFlag (s : State) (n : FlagName) : State :=
  match s.params.undefFlags with
  | .draw => { s with flags := s.flags.set n (Config.freeFlag s.draws), draws := s.draws + 1 }
  | .unchanged => s

/-- Several flags left undefined, each by its own draw (10_state.md R48). -/
def State.undefFlags : List FlagName → State → State
  | [], s => s
  | n :: ns, s => State.undefFlags ns (s.undefFlag n)

/-! ## Ports -/

/-- The bus's answer to a read of a port: the host's next answer, else a free value (20_memory.md R80,
R83, log 5). -/
def Bus.portOracle (b : Bus) : Byte :=
  match b.portIn with
  | v :: _ => v
  | [] => Config.freePortByte b.draws

/-- The bus after it has answered for a port: the answer is used up. -/
def Bus.portAnswered (b : Bus) : Bus :=
  { b with
    portIn := b.portIn.tail
    draws := if b.portIn.isEmpty then b.draws + 1 else b.draws }

/-- What `io_read_byte` answers (20_memory.md R80, R83). -/
def State.portAnswer (s : State) : Byte := s.bus.portOracle

/-- The state after `IoRead(port)` (20_memory.md R82, R93). -/
def State.afterIoRead (s : State) (port : Word) : State :=
  { s with bus := s.bus.portAnswered.note (.ioRead port s.portAnswer) }

/-- `IoWrite(port, v)` (20_memory.md R82, R93). -/
def State.ioWrite (s : State) (port : Word) (v : Byte) : State :=
  { s with bus := s.bus.note (.ioWrite port v) }

/-! ## The stack -/

/-- `Push(v)` (46_stack.md R450). -/
def State.push (s : State) (v : Word) : State :=
  let s1 := s.setR16 .sp (s.r16 .sp - 2)
  s1.writeWord (phys (s1.sreg .ss) (s1.r16 .sp)) v

/-- The word `Pop()` answers (46_stack.md R451). -/
def State.popValue (s : State) : Word := s.readWord (phys (s.sreg .ss) (s.r16 .sp))

/-- The state after `Pop()` (46_stack.md R451). -/
def State.afterPop (s : State) : State :=
  (s.afterReadWord (phys (s.sreg .ss) (s.r16 .sp))).setR16 .sp (s.r16 .sp + 2)

/-- `IP <- Pop()`. -/
def State.popIp (s : State) : State := s.afterPop.setIp s.popValue

/-- `sreg <- Pop()`, read through the stack segment as it stands. -/
def State.popSreg (s : State) (g : SegReg) : State := s.afterPop.setSreg g s.popValue

/-- The packed write of `Pop()` (10_state.md R41). -/
def State.popFlags (s : State) : State := s.afterPop.setFlags (flagsOfPacked s.popValue)

/-! ## Interrupt entry and return -/

/-- The physical address of a vector's IP word (60_exceptions.md R621). -/
def vectorAddr (n : Byte) : PAddr := n.setWidth 20 <<< 2

/-- `ServiceInterrupt(n)`, its accesses in the spec's order (60_exceptions.md R620). -/
def State.serviceInterrupt (s : State) (n : Byte) : State :=
  let s1 := s.push s.packed
  let s2 := s1.setFlags { s1.flags with tf := false, ief := false }
  let s3 := s2.push (s2.sreg .cs)
  let s4 := (s3.afterReadWord (vectorAddr n + 2)).setSreg .cs (s3.readWord (vectorAddr n + 2))
  let s5 := s4.push s4.ip
  (s5.afterReadWord (vectorAddr n)).setIp (s5.readWord (vectorAddr n))

/-- IRET: pop IP, pop CS, pop FLAGS (48_interrupt_instr.md R494). -/
def State.returnFromInterrupt (s : State) : State := (s.popIp.popSreg .cs).popFlags

/-- `DivideError()`: vector 0, not gated by IF (42_muldiv_bcd.md R300). -/
def State.divideError (s : State) : State := s.serviceInterrupt 0#8

/-! ## Fatal errors -/

/-- `raise InvalidOpcode`: the record is kept in `fault`; nothing after the raise executes
(60_exceptions.md R630, R632, log 9). -/
def State.raiseInvalid (s : State) (opcode : Byte) (modrm : Option Byte) : State :=
  { s with faultRec := some ⟨.invalidOpcode, opcode, modrm, s.opCs, s.opIp⟩ }

/-- `raise UnsupportedPrefixCombination`, against the opcode byte (60_exceptions.md R631, R632, log 9). -/
def State.raisePrefix (s : State) (opcode : Byte) : State :=
  { s with faultRec := some ⟨.unsupportedPrefixCombination, opcode, none, s.opCs, s.opIp⟩ }

end Sys2Proof.Machine
end

