-- ==== Sys2Proof/Machine/Operands.lean ====
section
/-! DEFINITION. The addressing decoder's descriptors and every operand form (30_encoding.md R128 to
R137; 20_memory.md R87). -/

namespace Sys2Proof.Machine

/-- The operand descriptor: a register or a 16-bit effective offset (30_encoding.md R130). -/
inductive Operand (R : Type) where
  | reg (r : R)
  | mem (ea : Word)
  deriving DecidableEq, Repr

/-- The base and index sum (30_encoding.md R128). -/
def State.baseSum (s : State) (b : BaseIdx) : Word :=
  match b with
  | .bxSi => s.r16 .bx + s.r16 .si
  | .bxDi => s.r16 .bx + s.r16 .di
  | .bpSi => s.r16 .bp + s.r16 .si
  | .bpDi => s.r16 .bp + s.r16 .di
  | .si => s.r16 .si
  | .di => s.r16 .di
  | .bp => s.r16 .bp
  | .bx => s.r16 .bx

/-- Whether a base and index sum uses BP, so that its default segment is SS (30_encoding.md R134). -/
def usesBp (b : BaseIdx) : Bool :=
  match b with
  | .bpSi | .bpDi | .bp => true
  | .bxSi | .bxDi | .si | .di | .bx => false

/-- The effective address (30_encoding.md R129, R133). -/
def State.ea (s : State) (p : MemOp) : Word :=
  match p with
  | .base b => s.baseSum b
  | .disp8 b d => s.baseSum b + sext16 d
  | .disp16 b d => s.baseSum b + d
  | .direct a => a

/-- Whether a memory operand's default segment is SS (30_encoding.md R134). -/
def stackBased (p : MemOp) : Bool :=
  match p with
  | .base b => usesBp b
  | .disp8 b _ => usesBp b
  | .disp16 b _ => usesBp b
  | .direct _ => false

/-- The decoder's write of `seg_override`: SS for a BP-based operand when no override is in force
(10_state.md R50, 30_encoding.md R130, R134). -/
def State.decodedMem (s : State) (p : MemOp) : State :=
  if stackBased p && s.segOverride.isNone then { s with segOverride := some .ss } else s

/-- The state after `Decode` of an r/m operand (30_encoding.md R130). -/
def State.decoded {R : Type} (s : State) (m : Rm R) : State :=
  match m with
  | .reg _ => s
  | .mem p => s.decodedMem p

/-- The descriptor `Decode` answers, from the registers as they stand (30_encoding.md R130, R133). -/
def State.operand {R : Type} (s : State) (m : Rm R) : Operand R :=
  match m with
  | .reg r => .reg r
  | .mem p => .mem (s.ea p)

/-- `DataSeg(DS)` (20_memory.md R87). -/
def State.dataSeg (s : State) : Word :=
  match s.segOverride with
  | some g => s.sreg g
  | none => s.sreg .ds

/-- The physical address of a data operand at an offset (30_encoding.md R137). -/
def State.dataAddr (s : State) (off : Word) : PAddr := phys s.dataSeg off

/-- `ReadOp(op, 8)` (30_encoding.md R137). -/
def State.readOp8 (s : State) (o : Operand Reg8) : Byte :=
  match o with
  | .reg r => s.r8 r
  | .mem ea => s.readByte (s.dataAddr ea)

/-- `ReadOp(op, 16)` (30_encoding.md R137). -/
def State.readOp16 (s : State) (o : Operand Reg16) : Word :=
  match o with
  | .reg r => s.r16 r
  | .mem ea => s.readWord (s.dataAddr ea)

/-- The state after `ReadOp(op, 8)`: a memory operand is one bus call (30_encoding.md R137). -/
def State.afterOp8 (s : State) (o : Operand Reg8) : State :=
  match o with
  | .reg _ => s
  | .mem ea => s.afterReadByte (s.dataAddr ea)

/-- The state after `ReadOp(op, 16)`: a memory operand is one bus call (30_encoding.md R137). -/
def State.afterOp16 (s : State) (o : Operand Reg16) : State :=
  match o with
  | .reg _ => s
  | .mem ea => s.afterReadWord (s.dataAddr ea)

/-- `WriteOp(op, 8, v)` (30_encoding.md R137). -/
def State.writeOp8 (s : State) (o : Operand Reg8) (v : Byte) : State :=
  match o with
  | .reg r => s.setR8 r v
  | .mem ea => s.writeByte (s.dataAddr ea) v

/-- `WriteOp(op, 16, v)` (30_encoding.md R137). -/
def State.writeOp16 (s : State) (o : Operand Reg16) (v : Word) : State :=
  match o with
  | .reg r => s.setR16 r v
  | .mem ea => s.writeWord (s.dataAddr ea) v

/-! ## An r/m operand decoded and read -/

/-- The value of an r/m byte operand: `Decode`, then `ReadOp` (30_encoding.md R130, R137). -/
def State.rmByte (s : State) (m : Rm Reg8) : Byte := (s.decoded m).readOp8 (s.operand m)

/-- The value of an r/m word operand: `Decode`, then `ReadOp` (30_encoding.md R130, R137). -/
def State.rmWord (s : State) (m : Rm Reg16) : Word := (s.decoded m).readOp16 (s.operand m)

/-- The state after `Decode` and `ReadOp` of an r/m byte operand. -/
def State.loaded8 (s : State) (m : Rm Reg8) : State := (s.decoded m).afterOp8 (s.operand m)

/-- The state after `Decode` and `ReadOp` of an r/m word operand. -/
def State.loaded16 (s : State) (m : Rm Reg16) : State := (s.decoded m).afterOp16 (s.operand m)

/-! ## An immediate read after the operand -/

/-- The address of the byte of code `k` bytes before CS:IP, IP wrapping in CS (30_encoding.md R120). -/
def State.codeBefore (s : State) (k : Word) : PAddr := phys (s.sreg .cs) (s.ip - k)

/-- `FetchByte()` of an immediate that ends the instruction, IP standing after it already (30_encoding.md R120). -/
def State.imm8 (s : State) : Byte := s.readByte (s.codeBefore 1)

/-- The state after that fetch: one bus call (20_memory.md R93). -/
def State.afterImm8 (s : State) : State := s.afterReadByte (s.codeBefore 1)

/-- `FetchWord()` of an immediate that ends the instruction, IP standing after it already: the low byte, then the high
byte (30_encoding.md R120). -/
def State.imm16 (s : State) : Word :=
  leWord (s.readByte (s.codeBefore 2)) ((s.afterReadByte (s.codeBefore 2)).readByte (s.codeBefore 1))

/-- The state after that fetch: a bus call for each byte (20_memory.md R93). -/
def State.afterImm16 (s : State) : State := (s.afterReadByte (s.codeBefore 2)).afterReadByte (s.codeBefore 1)

/-! ## Far pointers -/

/-- The offset word of a far pointer at an offset (40_data_movement.md R210). -/
def State.farOffset (s : State) (ea : Word) : Word := s.readWord (s.dataAddr ea)

/-- The segment word of a far pointer, at `(EA + 2) & 0xFFFF`, read after the offset word
(40_data_movement.md R210, 20_memory.md R89). -/
def State.farSegment (s : State) (ea : Word) : Word :=
  (s.afterReadWord (s.dataAddr ea)).readWord (s.dataAddr (ea + 2))

/-- The state after both words of a far pointer are read (40_data_movement.md R210). -/
def State.afterFar (s : State) (ea : Word) : State :=
  (s.afterReadWord (s.dataAddr ea)).afterReadWord (s.dataAddr (ea + 2))

end Sys2Proof.Machine
end

