-- ==== Sys2Proof/Machine/Alu.lean ====
section
/-! DEFINITION. The ALU block 0x00 to 0x3D and group 1 (41_arith_logic.md R250 to R261). -/

namespace Sys2Proof.Machine

/-- AluExecute on a byte destination with source `b` (41_arith_logic.md R250). -/
def State.alu8 (s : State) (op : AluOp) (o : Operand Reg8) (b : Byte) : State :=
  let a := s.readOp8 o
  let t := (s.afterOp8 o).setFlags (op.flags s.params.afMode a b s.flags)
  if op.writesBack then t.writeOp8 o (op.result a b s.flags.cf) else t

/-- AluExecute on a word destination with source `b` (41_arith_logic.md R250). -/
def State.alu16 (s : State) (op : AluOp) (o : Operand Reg16) (b : Word) : State :=
  let a := s.readOp16 o
  let t := (s.afterOp16 o).setFlags (op.flags s.params.afMode a b s.flags)
  if op.writesBack then t.writeOp16 o (op.result a b s.flags.cf) else t

/-! ## The operand forms (41_arith_logic.md R250) -/

def State.aluEbGb (s : State) (op : AluOp) (m : Rm Reg8) (r : Reg8) : State :=
  (s.decoded m).alu8 op (s.operand m) (s.r8 r)

def State.aluEvGv (s : State) (op : AluOp) (m : Rm Reg16) (r : Reg16) : State :=
  (s.decoded m).alu16 op (s.operand m) (s.r16 r)

def State.aluGbEb (s : State) (op : AluOp) (r : Reg8) (m : Rm Reg8) : State :=
  (s.loaded8 m).alu8 op (.reg r) (s.rmByte m)

def State.aluGvEv (s : State) (op : AluOp) (r : Reg16) (m : Rm Reg16) : State :=
  (s.loaded16 m).alu16 op (.reg r) (s.rmWord m)

def State.aluAlIb (s : State) (op : AluOp) (i : Byte) : State := s.alu8 op (.reg .al) i

def State.aluAxIv (s : State) (op : AluOp) (i : Word) : State := s.alu16 op (.reg .ax) i

def State.aluEbIb (s : State) (op : AluOp) (m : Rm Reg8) (i : Byte) : State :=
  (s.decoded m).alu8 op (s.operand m) i

def State.aluEvIv (s : State) (op : AluOp) (m : Rm Reg16) (i : Word) : State :=
  (s.decoded m).alu16 op (s.operand m) i

/-- Opcode 0x83: the immediate byte is sign-extended. -/
def State.aluEvSb (s : State) (op : AluOp) (m : Rm Reg16) (i : Byte) : State :=
  (s.decoded m).alu16 op (s.operand m) (sext16 i)

/-! ## ADD (41_arith_logic.md R254) -/

/-- `ADD Eb,Gb` (00); R254. -/
def execAddEbGb (m : Rm Reg8) (r : Reg8) (s : State) : Result :=
  .next (s.aluEbGb .add m r)

/-- `ADD Ev,Gv` (01); R254. -/
def execAddEvGv (m : Rm Reg16) (r : Reg16) (s : State) : Result :=
  .next (s.aluEvGv .add m r)

/-- `ADD Gb,Eb` (02); R254. -/
def execAddGbEb (r : Reg8) (m : Rm Reg8) (s : State) : Result :=
  .next (s.aluGbEb .add r m)

/-- `ADD Gv,Ev` (03); R254. -/
def execAddGvEv (r : Reg16) (m : Rm Reg16) (s : State) : Result :=
  .next (s.aluGvEv .add r m)

/-- `ADD AL,Ib` (04); R254. -/
def execAddAlIb (i : Byte) (s : State) : Result :=
  .next (s.aluAlIb .add i)

/-- `ADD AX,Iv` (05); R254. -/
def execAddAxIv (i : Word) (s : State) : Result :=
  .next (s.aluAxIv .add i)

/-- `ADD Eb,Ib` (80 /0); R254. -/
def execAddEbIb (m : Rm Reg8) (i : Byte) (s : State) : Result :=
  .next (s.aluEbIb .add m i)

/-- `ADD Ev,Iv` (81 /0); R254. -/
def execAddEvIv (m : Rm Reg16) (i : Word) (s : State) : Result :=
  .next (s.aluEvIv .add m i)

/-- `ADD Ev,simm8` (83 /0), the byte sign-extended; R254. -/
def execAddEvSb (m : Rm Reg16) (i : Byte) (s : State) : Result :=
  .next (s.aluEvSb .add m i)

/-! ## OR (41_arith_logic.md R260) -/

/-- `OR Eb,Gb` (08); R260. -/
def execOrEbGb (m : Rm Reg8) (r : Reg8) (s : State) : Result :=
  .next (s.aluEbGb .or m r)

/-- `OR Ev,Gv` (09); R260. -/
def execOrEvGv (m : Rm Reg16) (r : Reg16) (s : State) : Result :=
  .next (s.aluEvGv .or m r)

/-- `OR Gb,Eb` (0A); R260. -/
def execOrGbEb (r : Reg8) (m : Rm Reg8) (s : State) : Result :=
  .next (s.aluGbEb .or r m)

/-- `OR Gv,Ev` (0B); R260. -/
def execOrGvEv (r : Reg16) (m : Rm Reg16) (s : State) : Result :=
  .next (s.aluGvEv .or r m)

/-- `OR AL,Ib` (0C); R260. -/
def execOrAlIb (i : Byte) (s : State) : Result :=
  .next (s.aluAlIb .or i)

/-- `OR AX,Iv` (0D); R260. -/
def execOrAxIv (i : Word) (s : State) : Result :=
  .next (s.aluAxIv .or i)

/-- `OR Eb,Ib` (80 /1); R260. -/
def execOrEbIb (m : Rm Reg8) (i : Byte) (s : State) : Result :=
  .next (s.aluEbIb .or m i)

/-- `OR Ev,Iv` (81 /1); R260. -/
def execOrEvIv (m : Rm Reg16) (i : Word) (s : State) : Result :=
  .next (s.aluEvIv .or m i)

/-- `OR Ev,simm8` (83 /1), the byte sign-extended; R260. -/
def execOrEvSb (m : Rm Reg16) (i : Byte) (s : State) : Result :=
  .next (s.aluEvSb .or m i)

/-! ## ADC (41_arith_logic.md R255) -/

/-- `ADC Eb,Gb` (10); R255. -/
def execAdcEbGb (m : Rm Reg8) (r : Reg8) (s : State) : Result :=
  .next (s.aluEbGb .adc m r)

/-- `ADC Ev,Gv` (11); R255. -/
def execAdcEvGv (m : Rm Reg16) (r : Reg16) (s : State) : Result :=
  .next (s.aluEvGv .adc m r)

/-- `ADC Gb,Eb` (12); R255. -/
def execAdcGbEb (r : Reg8) (m : Rm Reg8) (s : State) : Result :=
  .next (s.aluGbEb .adc r m)

/-- `ADC Gv,Ev` (13); R255. -/
def execAdcGvEv (r : Reg16) (m : Rm Reg16) (s : State) : Result :=
  .next (s.aluGvEv .adc r m)

/-- `ADC AL,Ib` (14); R255. -/
def execAdcAlIb (i : Byte) (s : State) : Result :=
  .next (s.aluAlIb .adc i)

/-- `ADC AX,Iv` (15); R255. -/
def execAdcAxIv (i : Word) (s : State) : Result :=
  .next (s.aluAxIv .adc i)

/-- `ADC Eb,Ib` (80 /2); R255. -/
def execAdcEbIb (m : Rm Reg8) (i : Byte) (s : State) : Result :=
  .next (s.aluEbIb .adc m i)

/-- `ADC Ev,Iv` (81 /2); R255. -/
def execAdcEvIv (m : Rm Reg16) (i : Word) (s : State) : Result :=
  .next (s.aluEvIv .adc m i)

/-- `ADC Ev,simm8` (83 /2), the byte sign-extended; R255. -/
def execAdcEvSb (m : Rm Reg16) (i : Byte) (s : State) : Result :=
  .next (s.aluEvSb .adc m i)

/-! ## SBB (41_arith_logic.md R257) -/

/-- `SBB Eb,Gb` (18); R257. -/
def execSbbEbGb (m : Rm Reg8) (r : Reg8) (s : State) : Result :=
  .next (s.aluEbGb .sbb m r)

/-- `SBB Ev,Gv` (19); R257. -/
def execSbbEvGv (m : Rm Reg16) (r : Reg16) (s : State) : Result :=
  .next (s.aluEvGv .sbb m r)

/-- `SBB Gb,Eb` (1A); R257. -/
def execSbbGbEb (r : Reg8) (m : Rm Reg8) (s : State) : Result :=
  .next (s.aluGbEb .sbb r m)

/-- `SBB Gv,Ev` (1B); R257. -/
def execSbbGvEv (r : Reg16) (m : Rm Reg16) (s : State) : Result :=
  .next (s.aluGvEv .sbb r m)

/-- `SBB AL,Ib` (1C); R257. -/
def execSbbAlIb (i : Byte) (s : State) : Result :=
  .next (s.aluAlIb .sbb i)

/-- `SBB AX,Iv` (1D); R257. -/
def execSbbAxIv (i : Word) (s : State) : Result :=
  .next (s.aluAxIv .sbb i)

/-- `SBB Eb,Ib` (80 /3); R257. -/
def execSbbEbIb (m : Rm Reg8) (i : Byte) (s : State) : Result :=
  .next (s.aluEbIb .sbb m i)

/-- `SBB Ev,Iv` (81 /3); R257. -/
def execSbbEvIv (m : Rm Reg16) (i : Word) (s : State) : Result :=
  .next (s.aluEvIv .sbb m i)

/-- `SBB Ev,simm8` (83 /3), the byte sign-extended; R257. -/
def execSbbEvSb (m : Rm Reg16) (i : Byte) (s : State) : Result :=
  .next (s.aluEvSb .sbb m i)

/-! ## AND (41_arith_logic.md R259) -/

/-- `AND Eb,Gb` (20); R259. -/
def execAndEbGb (m : Rm Reg8) (r : Reg8) (s : State) : Result :=
  .next (s.aluEbGb .and m r)

/-- `AND Ev,Gv` (21); R259. -/
def execAndEvGv (m : Rm Reg16) (r : Reg16) (s : State) : Result :=
  .next (s.aluEvGv .and m r)

/-- `AND Gb,Eb` (22); R259. -/
def execAndGbEb (r : Reg8) (m : Rm Reg8) (s : State) : Result :=
  .next (s.aluGbEb .and r m)

/-- `AND Gv,Ev` (23); R259. -/
def execAndGvEv (r : Reg16) (m : Rm Reg16) (s : State) : Result :=
  .next (s.aluGvEv .and r m)

/-- `AND AL,Ib` (24); R259. -/
def execAndAlIb (i : Byte) (s : State) : Result :=
  .next (s.aluAlIb .and i)

/-- `AND AX,Iv` (25); R259. -/
def execAndAxIv (i : Word) (s : State) : Result :=
  .next (s.aluAxIv .and i)

/-- `AND Eb,Ib` (80 /4); R259. -/
def execAndEbIb (m : Rm Reg8) (i : Byte) (s : State) : Result :=
  .next (s.aluEbIb .and m i)

/-- `AND Ev,Iv` (81 /4); R259. -/
def execAndEvIv (m : Rm Reg16) (i : Word) (s : State) : Result :=
  .next (s.aluEvIv .and m i)

/-- `AND Ev,simm8` (83 /4), the byte sign-extended; R259. -/
def execAndEvSb (m : Rm Reg16) (i : Byte) (s : State) : Result :=
  .next (s.aluEvSb .and m i)

/-! ## SUB (41_arith_logic.md R256) -/

/-- `SUB Eb,Gb` (28); R256. -/
def execSubEbGb (m : Rm Reg8) (r : Reg8) (s : State) : Result :=
  .next (s.aluEbGb .sub m r)

/-- `SUB Ev,Gv` (29); R256. -/
def execSubEvGv (m : Rm Reg16) (r : Reg16) (s : State) : Result :=
  .next (s.aluEvGv .sub m r)

/-- `SUB Gb,Eb` (2A); R256. -/
def execSubGbEb (r : Reg8) (m : Rm Reg8) (s : State) : Result :=
  .next (s.aluGbEb .sub r m)

/-- `SUB Gv,Ev` (2B); R256. -/
def execSubGvEv (r : Reg16) (m : Rm Reg16) (s : State) : Result :=
  .next (s.aluGvEv .sub r m)

/-- `SUB AL,Ib` (2C); R256. -/
def execSubAlIb (i : Byte) (s : State) : Result :=
  .next (s.aluAlIb .sub i)

/-- `SUB AX,Iv` (2D); R256. -/
def execSubAxIv (i : Word) (s : State) : Result :=
  .next (s.aluAxIv .sub i)

/-- `SUB Eb,Ib` (80 /5); R256. -/
def execSubEbIb (m : Rm Reg8) (i : Byte) (s : State) : Result :=
  .next (s.aluEbIb .sub m i)

/-- `SUB Ev,Iv` (81 /5); R256. -/
def execSubEvIv (m : Rm Reg16) (i : Word) (s : State) : Result :=
  .next (s.aluEvIv .sub m i)

/-- `SUB Ev,simm8` (83 /5), the byte sign-extended; R256. -/
def execSubEvSb (m : Rm Reg16) (i : Byte) (s : State) : Result :=
  .next (s.aluEvSb .sub m i)

/-! ## XOR (41_arith_logic.md R261) -/

/-- `XOR Eb,Gb` (30); R261. -/
def execXorEbGb (m : Rm Reg8) (r : Reg8) (s : State) : Result :=
  .next (s.aluEbGb .xor m r)

/-- `XOR Ev,Gv` (31); R261. -/
def execXorEvGv (m : Rm Reg16) (r : Reg16) (s : State) : Result :=
  .next (s.aluEvGv .xor m r)

/-- `XOR Gb,Eb` (32); R261. -/
def execXorGbEb (r : Reg8) (m : Rm Reg8) (s : State) : Result :=
  .next (s.aluGbEb .xor r m)

/-- `XOR Gv,Ev` (33); R261. -/
def execXorGvEv (r : Reg16) (m : Rm Reg16) (s : State) : Result :=
  .next (s.aluGvEv .xor r m)

/-- `XOR AL,Ib` (34); R261. -/
def execXorAlIb (i : Byte) (s : State) : Result :=
  .next (s.aluAlIb .xor i)

/-- `XOR AX,Iv` (35); R261. -/
def execXorAxIv (i : Word) (s : State) : Result :=
  .next (s.aluAxIv .xor i)

/-- `XOR Eb,Ib` (80 /6); R261. -/
def execXorEbIb (m : Rm Reg8) (i : Byte) (s : State) : Result :=
  .next (s.aluEbIb .xor m i)

/-- `XOR Ev,Iv` (81 /6); R261. -/
def execXorEvIv (m : Rm Reg16) (i : Word) (s : State) : Result :=
  .next (s.aluEvIv .xor m i)

/-- `XOR Ev,simm8` (83 /6), the byte sign-extended; R261. -/
def execXorEvSb (m : Rm Reg16) (i : Byte) (s : State) : Result :=
  .next (s.aluEvSb .xor m i)

/-! ## CMP (41_arith_logic.md R258) -/

/-- `CMP Eb,Gb` (38); R258. -/
def execCmpEbGb (m : Rm Reg8) (r : Reg8) (s : State) : Result :=
  .next (s.aluEbGb .cmp m r)

/-- `CMP Ev,Gv` (39); R258. -/
def execCmpEvGv (m : Rm Reg16) (r : Reg16) (s : State) : Result :=
  .next (s.aluEvGv .cmp m r)

/-- `CMP Gb,Eb` (3A); R258. -/
def execCmpGbEb (r : Reg8) (m : Rm Reg8) (s : State) : Result :=
  .next (s.aluGbEb .cmp r m)

/-- `CMP Gv,Ev` (3B); R258. -/
def execCmpGvEv (r : Reg16) (m : Rm Reg16) (s : State) : Result :=
  .next (s.aluGvEv .cmp r m)

/-- `CMP AL,Ib` (3C); R258. -/
def execCmpAlIb (i : Byte) (s : State) : Result :=
  .next (s.aluAlIb .cmp i)

/-- `CMP AX,Iv` (3D); R258. -/
def execCmpAxIv (i : Word) (s : State) : Result :=
  .next (s.aluAxIv .cmp i)

/-- `CMP Eb,Ib` (80 /7); R258. -/
def execCmpEbIb (m : Rm Reg8) (i : Byte) (s : State) : Result :=
  .next (s.aluEbIb .cmp m i)

/-- `CMP Ev,Iv` (81 /7); R258. -/
def execCmpEvIv (m : Rm Reg16) (i : Word) (s : State) : Result :=
  .next (s.aluEvIv .cmp m i)

/-- `CMP Ev,simm8` (83 /7), the byte sign-extended; R258. -/
def execCmpEvSb (m : Rm Reg16) (i : Byte) (s : State) : Result :=
  .next (s.aluEvSb .cmp m i)

end Sys2Proof.Machine
end

