-- ==== Sys2Proof/Machine/Control.lean ====
section
/-! DEFINITION. Control transfer (43_control_transfer.md R340 to R359). IP stands after the whole instruction. -/

namespace Sys2Proof.Machine

/-- A relative jump from the IP after the instruction (43_control_transfer.md R340). -/
def State.jumpRel (s : State) (d : Word) : State := s.setIp (s.ip + d)

/-- A relative jump taken when `c` holds (43_control_transfer.md R342). -/
def State.branch (s : State) (c : Bool) (d : Word) : State := if c then s.jumpRel d else s

/-- A jump to a far pointer (43_control_transfer.md R345). -/
def State.jumpFar (s : State) (off sg : Word) : State := (s.setIp off).setSreg .cs sg

/-- A jump through a far pointer in memory (43_control_transfer.md R347). -/
def State.jumpPtr (s : State) (ea : Word) : State :=
  (s.afterFar ea).jumpFar (s.farOffset ea) (s.farSegment ea)

/-- A far call: CS is pushed, then IP (43_control_transfer.md R349). -/
def State.callFarTo (s : State) (off sg : Word) : State :=
  ((s.push (s.sreg .cs)).push s.ip).jumpFar off sg

/-- A far call through a pointer in memory, which is read whole before the first push
(43_control_transfer.md R351). -/
def State.callPtr (s : State) (ea : Word) : State :=
  (s.afterFar ea).callFarTo (s.farOffset ea) (s.farSegment ea)

/-- The stack adjustment of RET Iw and RETF Iw (43_control_transfer.md R353, R355). -/
def State.releaseStack (s : State) (n : Word) : State := s.setR16 .sp (s.r16 .sp + n)

/-- `CX <- CX - 1`, no flag written (43_control_transfer.md R356). -/
def State.countDown (s : State) : State := s.setR16 .cx (s.r16 .cx - 1)

/-- `JO rel8` (70); R341, R342. -/
def execJo (d : Byte) (s : State) : Result :=
  .next (s.branch (Cond.o.holds s.flags) (sext16 d))

/-- `JNO rel8` (71); R341, R342. -/
def execJno (d : Byte) (s : State) : Result :=
  .next (s.branch (Cond.no.holds s.flags) (sext16 d))

/-- `JB rel8` (72); R341, R342. -/
def execJb (d : Byte) (s : State) : Result :=
  .next (s.branch (Cond.b.holds s.flags) (sext16 d))

/-- `JAE rel8` (73); R341, R342. -/
def execJae (d : Byte) (s : State) : Result :=
  .next (s.branch (Cond.ae.holds s.flags) (sext16 d))

/-- `JE rel8` (74); R341, R342. -/
def execJe (d : Byte) (s : State) : Result :=
  .next (s.branch (Cond.e.holds s.flags) (sext16 d))

/-- `JNE rel8` (75); R341, R342. -/
def execJne (d : Byte) (s : State) : Result :=
  .next (s.branch (Cond.ne.holds s.flags) (sext16 d))

/-- `JBE rel8` (76); R341, R342. -/
def execJbe (d : Byte) (s : State) : Result :=
  .next (s.branch (Cond.be.holds s.flags) (sext16 d))

/-- `JA rel8` (77); R341, R342. -/
def execJa (d : Byte) (s : State) : Result :=
  .next (s.branch (Cond.a.holds s.flags) (sext16 d))

/-- `JS rel8` (78); R341, R342. -/
def execJs (d : Byte) (s : State) : Result :=
  .next (s.branch (Cond.s.holds s.flags) (sext16 d))

/-- `JNS rel8` (79); R341, R342. -/
def execJns (d : Byte) (s : State) : Result :=
  .next (s.branch (Cond.ns.holds s.flags) (sext16 d))

/-- `JP rel8` (7A); R341, R342. -/
def execJp (d : Byte) (s : State) : Result :=
  .next (s.branch (Cond.p.holds s.flags) (sext16 d))

/-- `JNP rel8` (7B); R341, R342. -/
def execJnp (d : Byte) (s : State) : Result :=
  .next (s.branch (Cond.np.holds s.flags) (sext16 d))

/-- `JL rel8` (7C); R341, R342. -/
def execJl (d : Byte) (s : State) : Result :=
  .next (s.branch (Cond.l.holds s.flags) (sext16 d))

/-- `JGE rel8` (7D); R341, R342. -/
def execJge (d : Byte) (s : State) : Result :=
  .next (s.branch (Cond.ge.holds s.flags) (sext16 d))

/-- `JLE rel8` (7E); R341, R342. -/
def execJle (d : Byte) (s : State) : Result :=
  .next (s.branch (Cond.le.holds s.flags) (sext16 d))

/-- `JG rel8` (7F); R341, R342. -/
def execJg (d : Byte) (s : State) : Result :=
  .next (s.branch (Cond.g.holds s.flags) (sext16 d))

/-- `JMP rel8` (EB); R343. -/
def execJmpShort (d : Byte) (s : State) : Result :=
  .next (s.jumpRel (sext16 d))

/-- `JMP rel16` (E9); R344. -/
def execJmpNear (d : Word) (s : State) : Result :=
  .next (s.jumpRel d)

/-- `JMP ptr16:16` (EA); R345. -/
def execJmpFar (off : Word) (sg : Word) (s : State) : Result :=
  .next (s.jumpFar off sg)

/-- `JMP Ev` (FF /4); R346. -/
def execJmpEv (m : Rm Reg16) (s : State) : Result :=
  .next ((s.loaded16 m).setIp (s.rmWord m))

/-- `JMP Mp` (FF /5); R347. -/
def execJmpMp (p : MemOp) (s : State) : Result :=
  .next ((s.decodedMem p).jumpPtr (s.ea p))

/-- `CALL rel16` (E8); R348. -/
def execCallNear (d : Word) (s : State) : Result :=
  .next ((s.push s.ip).jumpRel d)

/-- `CALL ptr16:16` (9A); R349. -/
def execCallFar (off : Word) (sg : Word) (s : State) : Result :=
  .next (s.callFarTo off sg)

/-- `CALL Ev` (FF /2); R350. -/
def execCallEv (m : Rm Reg16) (s : State) : Result :=
  .next (((s.loaded16 m).push s.ip).setIp (s.rmWord m))

/-- `CALL Mp` (FF /3); R351. -/
def execCallMp (p : MemOp) (s : State) : Result :=
  .next ((s.decodedMem p).callPtr (s.ea p))

/-- `RET` (C3); R352. -/
def execRet (s : State) : Result :=
  .next s.popIp

/-- `RET Iw` (C2); R353. -/
def execRetIw (n : Word) (s : State) : Result :=
  .next (s.popIp.releaseStack n)

/-- `RETF` (CB); R354. -/
def execRetf (s : State) : Result :=
  .next (s.popIp.popSreg .cs)

/-- `RETF Iw` (CA); R355. -/
def execRetfIw (n : Word) (s : State) : Result :=
  .next ((s.popIp.popSreg .cs).releaseStack n)

/-- `LOOP rel8` (E2); R356. -/
def execLoopJb (d : Byte) (s : State) : Result :=
  .next (s.countDown.branch (s.countDown.r16 .cx != 0) (sext16 d))

/-- `LOOPZ rel8` (E1); R357. -/
def execLoopz (d : Byte) (s : State) : Result :=
  .next (s.countDown.branch (s.countDown.r16 .cx != 0 && s.flags.zf) (sext16 d))

/-- `LOOPNZ rel8` (E0); R358. -/
def execLoopnz (d : Byte) (s : State) : Result :=
  .next (s.countDown.branch (s.countDown.r16 .cx != 0 && !s.flags.zf) (sext16 d))

/-- `JCXZ rel8` (E3); R359. -/
def execJcxz (d : Byte) (s : State) : Result :=
  .next (s.branch (s.r16 .cx == 0) (sext16 d))

end Sys2Proof.Machine
end

