-- ==== Sys2Proof/Machine/Interrupt.lean ====
section
/-! DEFINITION. Interrupt instructions (48_interrupt_instr.md R490 to R494). -/

namespace Sys2Proof.Machine



/-- `INT3` (CC); R490, R491. -/
def execInt3 (s : State) : Result :=
  .next (s.serviceInterrupt 3#8)

/-- `INT Ib` (CD); R490, R492. -/
def execIntIb (i : Byte) (s : State) : Result :=
  .next (s.serviceInterrupt i)

/-- `INTO` (CE); R493. -/
def execInto (s : State) : Result :=
  .next (if s.flags.ovf then s.serviceInterrupt 4#8 else s)

/-- `IRET` (CF); R494. -/
def execIret (s : State) : Result :=
  .next s.returnFromInterrupt

end Sys2Proof.Machine
end

