-- ==== Sys2Proof/Machine/Invalid.lean ====
section
/-! DEFINITION. The INVALID rows: InvalidOpcode is raised and nothing else is written (60_exceptions.md R630, R632). -/

namespace Sys2Proof.Machine

/-- The ModRM byte of a reg field and an r/m operand (30_encoding.md R121). -/
def modrmOf (q : BitVec 3) (m : Rm (BitVec 3)) : Byte := (encModrm q m).headD 0

/-- an opcode byte that selects no instruction (30_encoding.md R149); R630. -/
def execInvalidOp (b : Byte) (s : State) : Result :=
  .next (s.raiseInvalid b none)

/-- a ModRM reg field `q` that selects no instruction of opcode `b` (R150, R151); ModRM and displacement are read; R630. -/
def execInvalidSub (b : Byte) (q : BitVec 3) (m : Rm (BitVec 3)) (s : State) : Result :=
  .next ((s.decoded m).raiseInvalid b (some (modrmOf q m)))

/-- a register form (mod = 11, rm = `n`) of an instruction that needs memory (R152); R630. -/
def execInvalidForm (b : Byte) (q : BitVec 3) (n : BitVec 3) (s : State) : Result :=
  .next (s.raiseInvalid b (some (modrmOf q (.reg n))))

end Sys2Proof.Machine
end

