-- ==== Sys2Proof/Machine/Logic.lean ====
section
/-! DEFINITION. TEST, NOT, NEG, INC and DEC (41_arith_logic.md R262 to R269). -/

namespace Sys2Proof.Machine

/-- TEST: the flags of the conjunction, nothing written back (41_arith_logic.md R262, R263). -/
def State.test {w : Nat} (s : State) (a b : BitVec w) : State :=
  s.setFlags (logicFlags (a &&& b) s.flags)

/-- The flags NOT leaves, by `P_NOT_SETS_FLAGS` (41_arith_logic.md R264). -/
def State.notFlags {w : Nat} (s : State) (r : BitVec w) : State :=
  if s.params.notSetsFlags then s.setFlags (logicFlags r s.flags) else s

/-- NOT of an operand (41_arith_logic.md R264). -/
def State.notOp8 (s : State) (o : Operand Reg8) : State :=
  let r := ~~~(s.readOp8 o)
  ((s.afterOp8 o).writeOp8 o r).notFlags r

/-- NEG of an operand (41_arith_logic.md R265). -/
def State.negOp8 (s : State) (o : Operand Reg8) : State :=
  let a := s.readOp8 o
  ((s.afterOp8 o).setFlags (subFlags s.params.afMode 0#8 a false s.flags)).writeOp8 o (subResult 0#8 a false)

/-- INC of an operand (41_arith_logic.md R266, R267). -/
def State.incOp8 (s : State) (o : Operand Reg8) : State :=
  let a := s.readOp8 o
  ((s.afterOp8 o).setFlags (incFlags s.params.afMode a s.flags)).writeOp8 o (addResult a 1#8 false)

/-- DEC of an operand (41_arith_logic.md R268, R269). -/
def State.decOp8 (s : State) (o : Operand Reg8) : State :=
  let a := s.readOp8 o
  ((s.afterOp8 o).setFlags (decFlags s.params.afMode a s.flags)).writeOp8 o (subResult a 1#8 false)

/-- NOT of an operand (41_arith_logic.md R264). -/
def State.notOp16 (s : State) (o : Operand Reg16) : State :=
  let r := ~~~(s.readOp16 o)
  ((s.afterOp16 o).writeOp16 o r).notFlags r

/-- NEG of an operand (41_arith_logic.md R265). -/
def State.negOp16 (s : State) (o : Operand Reg16) : State :=
  let a := s.readOp16 o
  ((s.afterOp16 o).setFlags (subFlags s.params.afMode 0#16 a false s.flags)).writeOp16 o (subResult 0#16 a false)

/-- INC of an operand (41_arith_logic.md R266, R267). -/
def State.incOp16 (s : State) (o : Operand Reg16) : State :=
  let a := s.readOp16 o
  ((s.afterOp16 o).setFlags (incFlags s.params.afMode a s.flags)).writeOp16 o (addResult a 1#16 false)

/-- DEC of an operand (41_arith_logic.md R268, R269). -/
def State.decOp16 (s : State) (o : Operand Reg16) : State :=
  let a := s.readOp16 o
  ((s.afterOp16 o).setFlags (decFlags s.params.afMode a s.flags)).writeOp16 o (subResult a 1#16 false)

/-- `TEST Eb,Gb` (84); R262. -/
def execTestEbGb (m : Rm Reg8) (r : Reg8) (s : State) : Result :=
  .next ((s.loaded8 m).test (s.rmByte m) (s.r8 r))

/-- `TEST Ev,Gv` (85); R262. -/
def execTestEvGv (m : Rm Reg16) (r : Reg16) (s : State) : Result :=
  .next ((s.loaded16 m).test (s.rmWord m) (s.r16 r))

/-- `TEST AL,Ib` (A8); R263. -/
def execTestAlIb (i : Byte) (s : State) : Result :=
  .next (s.test (s.r8 .al) i)

/-- `TEST AX,Iv` (A9); R263. -/
def execTestAxIv (i : Word) (s : State) : Result :=
  .next (s.test (s.r16 .ax) i)

/-- `TEST Eb,Ib` (F6 /0); R263. The operand is read, then the immediate's byte is fetched, in the order of the
pseudocode (20_memory.md R93, D37): it is the one byte of the instruction that the fetch leaves to the meaning. -/
def execTestEbIb (m : Rm Reg8) (i : Byte) (s : State) : Result :=
  .next ((s.loaded8 m).afterImm8.test (s.rmByte m) i)

/-- `TEST Ev,Iv` (F7 /0); R263. The operand is read, then the immediate's two bytes are fetched, as for `TEST Eb,Ib`. -/
def execTestEvIv (m : Rm Reg16) (i : Word) (s : State) : Result :=
  .next ((s.loaded16 m).afterImm16.test (s.rmWord m) i)

/-- `NOT Eb` (F6 /2); R264. -/
def execNotEb (m : Rm Reg8) (s : State) : Result :=
  .next ((s.decoded m).notOp8 (s.operand m))

/-- `NOT Ev` (F7 /2); R264. -/
def execNotEv (m : Rm Reg16) (s : State) : Result :=
  .next ((s.decoded m).notOp16 (s.operand m))

/-- `NEG Eb` (F6 /3); R265. -/
def execNegEb (m : Rm Reg8) (s : State) : Result :=
  .next ((s.decoded m).negOp8 (s.operand m))

/-- `NEG Ev` (F7 /3); R265. -/
def execNegEv (m : Rm Reg16) (s : State) : Result :=
  .next ((s.decoded m).negOp16 (s.operand m))

/-- `INC Eb` (FE /0); R266. -/
def execIncEb (m : Rm Reg8) (s : State) : Result :=
  .next ((s.decoded m).incOp8 (s.operand m))

/-- `INC Ev` (FF /0); R266. -/
def execIncEv (m : Rm Reg16) (s : State) : Result :=
  .next ((s.decoded m).incOp16 (s.operand m))

/-- `INC r16` (40+r); R267. -/
def execIncR16 (r : Reg16) (s : State) : Result :=
  .next (s.incOp16 (.reg r))

/-- `DEC Eb` (FE /1); R268. -/
def execDecEb (m : Rm Reg8) (s : State) : Result :=
  .next ((s.decoded m).decOp8 (s.operand m))

/-- `DEC Ev` (FF /1); R268. -/
def execDecEv (m : Rm Reg16) (s : State) : Result :=
  .next ((s.decoded m).decOp16 (s.operand m))

/-- `DEC r16` (48+r); R269. -/
def execDecR16 (r : Reg16) (s : State) : Result :=
  .next (s.decOp16 (.reg r))

end Sys2Proof.Machine
end

