-- ==== Sys2Proof/Machine/Move.lean ====
section
/-! DEFINITION. Data movement (40_data_movement.md R200 to R217). -/

namespace Sys2Proof.Machine

/-- XCHG of a byte operand and a register (40_data_movement.md R207). -/
def State.xchg8 (s : State) (o : Operand Reg8) (r : Reg8) : State :=
  ((s.afterOp8 o).writeOp8 o (s.r8 r)).setR8 r (s.readOp8 o)

/-- XCHG of a word operand and a register (40_data_movement.md R207, R208). -/
def State.xchg16 (s : State) (o : Operand Reg16) (r : Reg16) : State :=
  ((s.afterOp16 o).writeOp16 o (s.r16 r)).setR16 r (s.readOp16 o)

/-- LDS and LES: both words are read before either register is written
(40_data_movement.md R210 to R212). -/
def State.loadFar (s : State) (r : Reg16) (g : SegReg) (ea : Word) : State :=
  ((s.afterFar ea).setR16 r (s.farOffset ea)).setSreg g (s.farSegment ea)

/-- The flags after SAHF (40_data_movement.md R215). -/
def flagsOfAh (v : Byte) (f : Flags) : Flags :=
  { f with
    sf := v.getLsbD 7
    zf := v.getLsbD 6
    af := v.getLsbD 4
    pf := v.getLsbD 2
    cf := v.getLsbD 0 }

/-- `MOV Eb,Gb` (88); R200. -/
def execMovEbGb (m : Rm Reg8) (r : Reg8) (s : State) : Result :=
  .next ((s.decoded m).writeOp8 (s.operand m) (s.r8 r))

/-- `MOV Ev,Gv` (89); R200. -/
def execMovEvGv (m : Rm Reg16) (r : Reg16) (s : State) : Result :=
  .next ((s.decoded m).writeOp16 (s.operand m) (s.r16 r))

/-- `MOV Gb,Eb` (8A); R200. -/
def execMovGbEb (r : Reg8) (m : Rm Reg8) (s : State) : Result :=
  .next ((s.loaded8 m).setR8 r (s.rmByte m))

/-- `MOV Gv,Ev` (8B); R200. -/
def execMovGvEv (r : Reg16) (m : Rm Reg16) (s : State) : Result :=
  .next ((s.loaded16 m).setR16 r (s.rmWord m))

/-- `MOV Eb,Ib` (C6 /0); R201. -/
def execMovEbIb (m : Rm Reg8) (i : Byte) (s : State) : Result :=
  .next ((s.decoded m).writeOp8 (s.operand m) i)

/-- `MOV Ev,Iv` (C7 /0); R201. -/
def execMovEvIv (m : Rm Reg16) (i : Word) (s : State) : Result :=
  .next ((s.decoded m).writeOp16 (s.operand m) i)

/-- `MOV r8,Ib` (B0+r); R202. -/
def execMovR8Ib (r : Reg8) (i : Byte) (s : State) : Result :=
  .next (s.setR8 r i)

/-- `MOV r16,Iv` (B8+r); R202. -/
def execMovR16Iv (r : Reg16) (i : Word) (s : State) : Result :=
  .next (s.setR16 r i)

/-- `MOV Sw,Ew` (8E), Sw not CS; R203. -/
def execMovSwEw (g : SegReg) (m : Rm Reg16) (s : State) : Result :=
  .next ((s.loaded16 m).setSreg g (s.rmWord m))

/-- `MOV Ew,Sw` (8C); R204. -/
def execMovEwSw (m : Rm Reg16) (g : SegReg) (s : State) : Result :=
  .next ((s.decoded m).writeOp16 (s.operand m) (s.sreg g))

/-- `MOV AL,Ob` (A0); R205. -/
def execMovAlOb (a : Word) (s : State) : Result :=
  .next ((s.afterReadByte (s.dataAddr a)).setR8 .al (s.readByte (s.dataAddr a)))

/-- `MOV AX,Ov` (A1); R205. -/
def execMovAxOv (a : Word) (s : State) : Result :=
  .next ((s.afterReadWord (s.dataAddr a)).setR16 .ax (s.readWord (s.dataAddr a)))

/-- `MOV Ob,AL` (A2); R206. -/
def execMovObAl (a : Word) (s : State) : Result :=
  .next (s.writeByte (s.dataAddr a) (s.r8 .al))

/-- `MOV Ov,AX` (A3); R206. -/
def execMovOvAx (a : Word) (s : State) : Result :=
  .next (s.writeWord (s.dataAddr a) (s.r16 .ax))

/-- `XCHG Eb,Gb` (86); R207. -/
def execXchgEbGb (m : Rm Reg8) (r : Reg8) (s : State) : Result :=
  .next ((s.decoded m).xchg8 (s.operand m) r)

/-- `XCHG Ev,Gv` (87); R207. -/
def execXchgEvGv (m : Rm Reg16) (r : Reg16) (s : State) : Result :=
  .next ((s.decoded m).xchg16 (s.operand m) r)

/-- `XCHG AX,r16` (90+r), r not AX; R208. -/
def execXchgAxR16 (r : Reg16) (s : State) : Result :=
  .next (s.xchg16 (.reg .ax) r)

/-- `LEA Gv,M` (8D); R209. -/
def execLea (r : Reg16) (p : MemOp) (s : State) : Result :=
  .next ((s.decodedMem p).setR16 r (s.ea p))

/-- `LDS Gv,M` (C5); R211. -/
def execLds (r : Reg16) (p : MemOp) (s : State) : Result :=
  .next ((s.decodedMem p).loadFar r .ds (s.ea p))

/-- `LES Gv,M` (C4); R212. -/
def execLes (r : Reg16) (p : MemOp) (s : State) : Result :=
  .next ((s.decodedMem p).loadFar r .es (s.ea p))

/-- The address XLAT reads (40_data_movement.md R213). -/
def State.xlatAddr (s : State) : PAddr := s.dataAddr (s.r16 .bx + zext16 (s.r8 .al))

/-- `XLAT` (D7); R213. -/
def execXlat (s : State) : Result :=
  .next ((s.afterReadByte s.xlatAddr).setR8 .al (s.readByte s.xlatAddr))

/-- `LAHF` (9F); R214. -/
def execLahf (s : State) : Result :=
  .next (s.setR8 .ah (lowByte s.packed))

/-- `SAHF` (9E); R215. -/
def execSahf (s : State) : Result :=
  .next (s.setFlags (flagsOfAh (s.r8 .ah) s.flags))

/-- `CBW` (98); R216. -/
def execCbw (s : State) : Result :=
  .next (s.setR16 .ax (sext16 (s.r8 .al)))

/-- `CWD` (99); R217. -/
def execCwd (s : State) : Result :=
  .next (s.setR16 .dx (if (s.r16 .ax).msb then 0xFFFF#16 else 0#16))

end Sys2Proof.Machine
end

