-- ==== Sys2Proof/Machine/MulDiv.lean ====
section
/-! DEFINITION. Multiply, divide and decimal adjust (42_muldiv_bcd.md R300 to R311). -/

namespace Sys2Proof.Machine

/-! ## Multiply -/

/-- The flags of a multiply: CF and OF set to `c`, the rest undefined (42_muldiv_bcd.md R301, R302). -/
def State.mulFlags (s : State) (c : Bool) : State :=
  State.undefFlags [.sf, .zf, .af, .pf] (s.setFlags { s.flags with cf := c, ovf := c })

/-- MUL by a byte (42_muldiv_bcd.md R301). -/
def State.mul8 (s : State) (x : Byte) : State :=
  let p : Word := BitVec.ofNat 16 ((s.r8 .al).toNat * x.toNat)
  (s.setR16 .ax p).mulFlags (highByte p != 0)

/-- MUL by a word (42_muldiv_bcd.md R301). -/
def State.mul16 (s : State) (x : Word) : State :=
  let p := (s.r16 .ax).toNat * x.toNat
  let hi : Word := BitVec.ofNat 16 (p / 2 ^ 16)
  ((s.setR16 .ax (BitVec.ofNat 16 p)).setR16 .dx hi).mulFlags (hi != 0)

/-- IMUL by a byte (42_muldiv_bcd.md R302). -/
def State.imul8 (s : State) (x : Byte) : State :=
  let p : Word := BitVec.ofInt 16 ((s.r8 .al).toInt * x.toInt)
  (s.setR16 .ax p).mulFlags (decide (p.toInt ≠ (lowByte p).toInt))

/-- IMUL by a word (42_muldiv_bcd.md R302). -/
def State.imul16 (s : State) (x : Word) : State :=
  let p := (s.r16 .ax).toInt * x.toInt
  let lo : Word := BitVec.ofInt 16 p
  let hi : Word := BitVec.ofInt 16 (p / 2 ^ 16)
  ((s.setR16 .ax lo).setR16 .dx hi).mulFlags (decide (p ≠ lo.toInt))

/-! ## Divide -/

/-- The flags of a divide that succeeded: all undefined (42_muldiv_bcd.md R303, R304). -/
def State.divFlags (s : State) : State := State.undefFlags [.cf, .ovf, .sf, .zf, .af, .pf] s

/-- DX:AX as an unsigned number (00_scope.md R8). -/
def State.dxAx (s : State) : BitVec 32 := s.r16 .dx ++ s.r16 .ax

/-- DIV by a byte (42_muldiv_bcd.md R303). -/
def State.div8 (s : State) (d : Byte) : State :=
  let n := (s.r16 .ax).toNat
  let q := n / d.toNat
  let r := n % d.toNat
  if d = 0 then s.divideError
  else if q > 0xFF then s.divideError
  else ((s.setR8 .al (BitVec.ofNat 8 q)).setR8 .ah (BitVec.ofNat 8 r)).divFlags

/-- DIV by a word (42_muldiv_bcd.md R303). -/
def State.div16 (s : State) (d : Word) : State :=
  let n := s.dxAx.toNat
  let q := n / d.toNat
  let r := n % d.toNat
  if d = 0 then s.divideError
  else if q > 0xFFFF then s.divideError
  else ((s.setR16 .ax (BitVec.ofNat 16 q)).setR16 .dx (BitVec.ofNat 16 r)).divFlags

/-- The least quotient IDIV stores at a width, by `P_IDIV_ACCEPT_MIN` (42_muldiv_bcd.md R304). -/
def State.idivLeast (s : State) (w : Nat) : Int :=
  if s.params.idivAcceptMin then -(2 ^ (w - 1)) else -(2 ^ (w - 1)) + 1

/-- Whether a quotient is outside what IDIV stores at a width (42_muldiv_bcd.md R304). -/
def State.idivOverflows (s : State) (w : Nat) (q : Int) : Bool :=
  decide (q < s.idivLeast w) || decide (q > 2 ^ (w - 1) - 1)

/-- IDIV by a byte: the quotient truncates toward zero, the remainder has the dividend's sign
(42_muldiv_bcd.md R304). -/
def State.idiv8 (s : State) (d : Byte) : State :=
  let n := (s.r16 .ax).toInt
  let q := n.tdiv d.toInt
  let r := n.tmod d.toInt
  if d = 0 then s.divideError
  else if s.idivOverflows 8 q then s.divideError
  else ((s.setR8 .al (BitVec.ofInt 8 q)).setR8 .ah (BitVec.ofInt 8 r)).divFlags

/-- IDIV by a word (42_muldiv_bcd.md R304). -/
def State.idiv16 (s : State) (d : Word) : State :=
  let n := s.dxAx.toInt
  let q := n.tdiv d.toInt
  let r := n.tmod d.toInt
  if d = 0 then s.divideError
  else if s.idivOverflows 16 q then s.divideError
  else ((s.setR16 .ax (BitVec.ofInt 16 q)).setR16 .dx (BitVec.ofInt 16 r)).divFlags

/-! ## Decimal adjust -/

/-- The low decimal digit of AL needs adjusting (42_muldiv_bcd.md R306 to R309). -/
def State.lowDigitOver (s : State) : Bool :=
  decide (((s.r8 .al) &&& 0x0F#8).toNat > 9) || s.flags.af

/-- The high decimal digit of AL needs adjusting (42_muldiv_bcd.md R306, R307). -/
def State.highDigitOver (s : State) : Bool := decide ((s.r8 .al).toNat > 0x99) || s.flags.cf

/-- DAA (42_muldiv_bcd.md R306). -/
def State.decimalAdd (s : State) : State :=
  let al1 := if s.lowDigitOver then s.r8 .al + 6 else s.r8 .al
  let al2 := if s.highDigitOver then al1 + 0x60 else al1
  let f := ({ s.flags with af := s.lowDigitOver, cf := s.highDigitOver } : Flags).setSZP al2
  ((s.setR8 .al al2).setFlags f).undefFlag .ovf

/-- DAS (42_muldiv_bcd.md R307). The borrow of the first step survives when the second is not taken. -/
def State.decimalSub (s : State) : State :=
  let al1 := if s.lowDigitOver then s.r8 .al - 6 else s.r8 .al
  let cf1 := s.lowDigitOver && (s.flags.cf || decide ((s.r8 .al).toNat < 6))
  let al2 := if s.highDigitOver then al1 - 0x60 else al1
  let f := ({ s.flags with af := s.lowDigitOver, cf := s.highDigitOver || cf1 } : Flags).setSZP al2
  ((s.setR8 .al al2).setFlags f).undefFlag .ovf

/-- AAA and AAS, given AL and AH as they are when the low digit is adjusted
(42_muldiv_bcd.md R308, R309). -/
def State.asciiAdjust (s : State) (al ah : Byte) : State :=
  let adj := s.lowDigitOver
  let al1 := if adj then al else s.r8 .al
  let ah1 := if adj then ah else s.r8 .ah
  let t := (s.setR8 .al (al1 &&& 0x0F)).setR8 .ah ah1
  State.undefFlags [.ovf, .sf, .zf, .pf] (t.setFlags { t.flags with af := adj, cf := adj })

/-- AAD with base `b` (42_muldiv_bcd.md R310). -/
def State.asciiJoin (s : State) (b : Byte) : State :=
  let al := s.r8 .al + s.r8 .ah * b
  let t := (s.setR8 .al al).setR8 .ah 0
  State.undefFlags [.ovf, .af, .cf] (t.setFlags (t.flags.setSZP al))

/-- AAM with base `b`; base 0 is a divide error (42_muldiv_bcd.md R311). -/
def State.asciiSplit (s : State) (b : Byte) : State :=
  let al : Byte := BitVec.ofNat 8 ((s.r8 .al).toNat % b.toNat)
  let t := (s.setR8 .ah (BitVec.ofNat 8 ((s.r8 .al).toNat / b.toNat))).setR8 .al al
  if b = 0 then s.divideError
  else State.undefFlags [.ovf, .af, .cf] (t.setFlags (t.flags.setSZP al))

/-- `MUL Eb` (F6 /4); R301. -/
def execMulEb (m : Rm Reg8) (s : State) : Result :=
  .next ((s.loaded8 m).mul8 (s.rmByte m))

/-- `MUL Ev` (F7 /4); R301. -/
def execMulEv (m : Rm Reg16) (s : State) : Result :=
  .next ((s.loaded16 m).mul16 (s.rmWord m))

/-- `IMUL Eb` (F6 /5); R302. -/
def execImulEb (m : Rm Reg8) (s : State) : Result :=
  .next ((s.loaded8 m).imul8 (s.rmByte m))

/-- `IMUL Ev` (F7 /5); R302. -/
def execImulEv (m : Rm Reg16) (s : State) : Result :=
  .next ((s.loaded16 m).imul16 (s.rmWord m))

/-- `DIV Eb` (F6 /6); R303. -/
def execDivEb (m : Rm Reg8) (s : State) : Result :=
  .next ((s.loaded8 m).div8 (s.rmByte m))

/-- `DIV Ev` (F7 /6); R303. -/
def execDivEv (m : Rm Reg16) (s : State) : Result :=
  .next ((s.loaded16 m).div16 (s.rmWord m))

/-- `IDIV Eb` (F6 /7); R304. -/
def execIdivEb (m : Rm Reg8) (s : State) : Result :=
  .next ((s.loaded8 m).idiv8 (s.rmByte m))

/-- `IDIV Ev` (F7 /7); R304. -/
def execIdivEv (m : Rm Reg16) (s : State) : Result :=
  .next ((s.loaded16 m).idiv16 (s.rmWord m))

/-- `DAA` (27); R306. -/
def execDaa (s : State) : Result :=
  .next s.decimalAdd

/-- `DAS` (2F); R307. -/
def execDas (s : State) : Result :=
  .next s.decimalSub

/-- `AAA` (37); R308. -/
def execAaa (s : State) : Result :=
  .next (s.asciiAdjust (s.r8 .al + 6) (s.r8 .ah + 1))

/-- `AAS` (3F); R309. -/
def execAas (s : State) : Result :=
  .next (s.asciiAdjust (s.r8 .al - 6) (s.r8 .ah - 1))

/-- `AAM Ib` (D4); R311. -/
def execAam (i : Byte) (s : State) : Result :=
  .next (s.asciiSplit i)

/-- `AAD Ib` (D5); R310. -/
def execAad (i : Byte) (s : State) : Result :=
  .next (s.asciiJoin i)

end Sys2Proof.Machine
end

