-- ==== Sys2Proof/Machine/PortIO.lean ====
section
/-! DEFINITION. Port input and output (47_io.md R480 to R484). -/

namespace Sys2Proof.Machine



/-- `IN AL,Ib` (E4); R481. -/
def execInAlIb (i : Byte) (s : State) : Result :=
  .next ((s.afterIoRead (zext16 i)).setR8 .al s.portAnswer)

/-- `IN AL,DX` (EC); R482. -/
def execInAlDx (s : State) : Result :=
  .next ((s.afterIoRead (s.r16 .dx)).setR8 .al s.portAnswer)

/-- `OUT Ib,AL` (E6); R483. -/
def execOutIbAl (i : Byte) (s : State) : Result :=
  .next (s.ioWrite (zext16 i) (s.r8 .al))

/-- `OUT DX,AL` (EE); R484. -/
def execOutDxAl (s : State) : Result :=
  .next (s.ioWrite (s.r16 .dx) (s.r8 .al))

end Sys2Proof.Machine
end

