-- ==== Sys2Proof/Machine/Prefixes.lean ====
section
/-! DEFINITION. The prefix bytes: each writes the prefix state, the last of a kind winning (30_encoding.md R139, R140). -/

namespace Sys2Proof.Machine



/-- prefix byte 26: segment override ES; R139. -/
def execPfxEs (s : State) : Result :=
  .next { s with segOverride := some .es }

/-- prefix byte 2E: segment override CS; R139. -/
def execPfxCs (s : State) : Result :=
  .next { s with segOverride := some .cs }

/-- prefix byte 36: segment override SS; R139. -/
def execPfxSs (s : State) : Result :=
  .next { s with segOverride := some .ss }

/-- prefix byte 3E: segment override DS; R139. -/
def execPfxDs (s : State) : Result :=
  .next { s with segOverride := some .ds }

/-- prefix byte F0: LOCK; R139, R509: recorded, nothing reads it. -/
def execPfxLock (s : State) : Result :=
  .next { s with lock := true }

/-- prefix byte F2: REPNE / REPNZ; R139. -/
def execPfxRepnz (s : State) : Result :=
  .next { s with rep := .repnz }

/-- prefix byte F3: REP / REPE / REPZ; R139. -/
def execPfxRepz (s : State) : Result :=
  .next { s with rep := .repz }

end Sys2Proof.Machine
end

