-- ==== Sys2Proof/Machine/Shift.lean ====
section
/-! DEFINITION. Group 2: shifts and rotates (45_shift_rotate.md R420 to R429). -/

namespace Sys2Proof.Machine

/-- The flags of a shift or rotate of `v0` by `n` steps, at least one, to the value and carry `x`
(45_shift_rotate.md R420 to R422). -/
def State.shiftFlags {w : Nat} (s : State) (op : ShiftOp) (n : Nat) (v0 : BitVec w) (x : BitVec w × Bool) :
    State :=
  let s1 := s.setFlags { s.flags with cf := x.2 }
  let s2 := if n = 1 then s1.setFlags { s1.flags with ovf := op.of1 v0 x.1 x.2 } else s1.undefFlag .ovf
  if op.isShift then (s2.setFlags (s2.flags.setSZP x.1)).undefFlag .af else s2

/-- A shift or rotate of an operand by `n` steps; the operand is read, and a count of 0 changes nothing
(45_shift_rotate.md R420). -/
def State.shift8 (s : State) (op : ShiftOp) (o : Operand Reg8) (n : Nat) : State :=
  let v0 := s.readOp8 o
  let x := op.iter n (v0, s.flags.cf)
  if n = 0 then s.afterOp8 o else ((s.afterOp8 o).writeOp8 o x.1).shiftFlags op n v0 x

/-- A shift or rotate of an operand by `n` steps; the operand is read, and a count of 0 changes nothing
(45_shift_rotate.md R420). -/
def State.shift16 (s : State) (op : ShiftOp) (o : Operand Reg16) (n : Nat) : State :=
  let v0 := s.readOp16 o
  let x := op.iter n (v0, s.flags.cf)
  if n = 0 then s.afterOp16 o else ((s.afterOp16 o).writeOp16 o x.1).shiftFlags op n v0 x

/-- `ROL Eb,1` (D0 /0); R423. -/
def execRolEb1 (m : Rm Reg8) (s : State) : Result :=
  .next ((s.decoded m).shift8 .rol (s.operand m) 1)

/-- `ROL Ev,1` (D1 /0); R423. -/
def execRolEv1 (m : Rm Reg16) (s : State) : Result :=
  .next ((s.decoded m).shift16 .rol (s.operand m) 1)

/-- `ROL Eb,CL` (D2 /0); R423. -/
def execRolEbCl (m : Rm Reg8) (s : State) : Result :=
  .next ((s.decoded m).shift8 .rol (s.operand m) (s.r8 .cl).toNat)

/-- `ROL Ev,CL` (D3 /0); R423. -/
def execRolEvCl (m : Rm Reg16) (s : State) : Result :=
  .next ((s.decoded m).shift16 .rol (s.operand m) (s.r8 .cl).toNat)

/-- `ROR Eb,1` (D0 /1); R424. -/
def execRorEb1 (m : Rm Reg8) (s : State) : Result :=
  .next ((s.decoded m).shift8 .ror (s.operand m) 1)

/-- `ROR Ev,1` (D1 /1); R424. -/
def execRorEv1 (m : Rm Reg16) (s : State) : Result :=
  .next ((s.decoded m).shift16 .ror (s.operand m) 1)

/-- `ROR Eb,CL` (D2 /1); R424. -/
def execRorEbCl (m : Rm Reg8) (s : State) : Result :=
  .next ((s.decoded m).shift8 .ror (s.operand m) (s.r8 .cl).toNat)

/-- `ROR Ev,CL` (D3 /1); R424. -/
def execRorEvCl (m : Rm Reg16) (s : State) : Result :=
  .next ((s.decoded m).shift16 .ror (s.operand m) (s.r8 .cl).toNat)

/-- `RCL Eb,1` (D0 /2); R425. -/
def execRclEb1 (m : Rm Reg8) (s : State) : Result :=
  .next ((s.decoded m).shift8 .rcl (s.operand m) 1)

/-- `RCL Ev,1` (D1 /2); R425. -/
def execRclEv1 (m : Rm Reg16) (s : State) : Result :=
  .next ((s.decoded m).shift16 .rcl (s.operand m) 1)

/-- `RCL Eb,CL` (D2 /2); R425. -/
def execRclEbCl (m : Rm Reg8) (s : State) : Result :=
  .next ((s.decoded m).shift8 .rcl (s.operand m) (s.r8 .cl).toNat)

/-- `RCL Ev,CL` (D3 /2); R425. -/
def execRclEvCl (m : Rm Reg16) (s : State) : Result :=
  .next ((s.decoded m).shift16 .rcl (s.operand m) (s.r8 .cl).toNat)

/-- `RCR Eb,1` (D0 /3); R426. -/
def execRcrEb1 (m : Rm Reg8) (s : State) : Result :=
  .next ((s.decoded m).shift8 .rcr (s.operand m) 1)

/-- `RCR Ev,1` (D1 /3); R426. -/
def execRcrEv1 (m : Rm Reg16) (s : State) : Result :=
  .next ((s.decoded m).shift16 .rcr (s.operand m) 1)

/-- `RCR Eb,CL` (D2 /3); R426. -/
def execRcrEbCl (m : Rm Reg8) (s : State) : Result :=
  .next ((s.decoded m).shift8 .rcr (s.operand m) (s.r8 .cl).toNat)

/-- `RCR Ev,CL` (D3 /3); R426. -/
def execRcrEvCl (m : Rm Reg16) (s : State) : Result :=
  .next ((s.decoded m).shift16 .rcr (s.operand m) (s.r8 .cl).toNat)

/-- `SHL Eb,1` (D0 /4); R427. -/
def execShlEb1 (m : Rm Reg8) (s : State) : Result :=
  .next ((s.decoded m).shift8 .shl (s.operand m) 1)

/-- `SHL Ev,1` (D1 /4); R427. -/
def execShlEv1 (m : Rm Reg16) (s : State) : Result :=
  .next ((s.decoded m).shift16 .shl (s.operand m) 1)

/-- `SHL Eb,CL` (D2 /4); R427. -/
def execShlEbCl (m : Rm Reg8) (s : State) : Result :=
  .next ((s.decoded m).shift8 .shl (s.operand m) (s.r8 .cl).toNat)

/-- `SHL Ev,CL` (D3 /4); R427. -/
def execShlEvCl (m : Rm Reg16) (s : State) : Result :=
  .next ((s.decoded m).shift16 .shl (s.operand m) (s.r8 .cl).toNat)

/-- `SHR Eb,1` (D0 /5); R428. -/
def execShrEb1 (m : Rm Reg8) (s : State) : Result :=
  .next ((s.decoded m).shift8 .shr (s.operand m) 1)

/-- `SHR Ev,1` (D1 /5); R428. -/
def execShrEv1 (m : Rm Reg16) (s : State) : Result :=
  .next ((s.decoded m).shift16 .shr (s.operand m) 1)

/-- `SHR Eb,CL` (D2 /5); R428. -/
def execShrEbCl (m : Rm Reg8) (s : State) : Result :=
  .next ((s.decoded m).shift8 .shr (s.operand m) (s.r8 .cl).toNat)

/-- `SHR Ev,CL` (D3 /5); R428. -/
def execShrEvCl (m : Rm Reg16) (s : State) : Result :=
  .next ((s.decoded m).shift16 .shr (s.operand m) (s.r8 .cl).toNat)

/-- `SAR Eb,1` (D0 /7); R429. -/
def execSarEb1 (m : Rm Reg8) (s : State) : Result :=
  .next ((s.decoded m).shift8 .sar (s.operand m) 1)

/-- `SAR Ev,1` (D1 /7); R429. -/
def execSarEv1 (m : Rm Reg16) (s : State) : Result :=
  .next ((s.decoded m).shift16 .sar (s.operand m) 1)

/-- `SAR Eb,CL` (D2 /7); R429. -/
def execSarEbCl (m : Rm Reg8) (s : State) : Result :=
  .next ((s.decoded m).shift8 .sar (s.operand m) (s.r8 .cl).toNat)

/-- `SAR Ev,CL` (D3 /7); R429. -/
def execSarEvCl (m : Rm Reg16) (s : State) : Result :=
  .next ((s.decoded m).shift16 .sar (s.operand m) (s.r8 .cl).toNat)

end Sys2Proof.Machine
end

