-- ==== Sys2Proof/Machine/Stack.lean ====
section
/-! DEFINITION. Stack instructions (46_stack.md R452 to R459). -/

namespace Sys2Proof.Machine

/-- The value PUSH stores: the operand, read before SP changes, but SP already decremented when the
operand is SP (46_stack.md R452, R454). -/
def State.pushedValue (s : State) (o : Operand Reg16) : Word :=
  if o = .reg .sp then s.r16 .sp - 2 else s.readOp16 o

/-- `PUSH r16` (50+r); R452. -/
def execPushR16 (r : Reg16) (s : State) : Result :=
  .next (s.push (s.pushedValue (.reg r)))

/-- `PUSH sreg` (06, 0E, 16, 1E); R455. -/
def execPushSreg (g : SegReg) (s : State) : Result :=
  .next (s.push (s.sreg g))

/-- `PUSH Ev` (FF /6); R454. -/
def execPushEv (m : Rm Reg16) (s : State) : Result :=
  .next ((s.loaded16 m).push ((s.decoded m).pushedValue (s.operand m)))

/-- `POP r16` (58+r); R453. -/
def execPopR16 (r : Reg16) (s : State) : Result :=
  .next (s.afterPop.setR16 r s.popValue)

/-- `POP sreg` (07, 17, 1F), sreg not CS; R456. -/
def execPopSreg (g : SegReg) (s : State) : Result :=
  .next (s.popSreg g)

/-- `POP Ev` (8F /0); R457. -/
def execPopEv (m : Rm Reg16) (s : State) : Result :=
  .next ((s.decoded m).afterPop.writeOp16 (s.operand m) (s.decoded m).popValue)

/-- `PUSHF` (9C); R458. -/
def execPushf (s : State) : Result :=
  .next (s.push s.packed)

/-- `POPF` (9D); R459. -/
def execPopf (s : State) : Result :=
  .next s.popFlags

end Sys2Proof.Machine
end

