-- ==== Sys2Proof/Machine/Strings.lean ====
section
/-! DEFINITION. String instructions and the repeat loop (44_string.md R390 to R398). -/

namespace Sys2Proof.Machine

/-- `Advance(reg, w)` for SI and DI, the width `n` in bytes (44_string.md R390). -/
def State.advance (s : State) (r : Reg16) (n : Word) : State :=
  s.setR16 r (if s.flags.df then s.r16 r - n else s.r16 r + n)

/-- Whether a repeated string instruction stops after an iteration (44_string.md R391). -/
def State.repeatEnds (s : State) (compares : Bool) : Bool :=
  compares && ((s.rep == .repz && !s.flags.zf) || (s.rep == .repnz && s.flags.zf))

/-- The repeat loop, for as many iterations as CX still counts: CX is decremented before the body
(44_string.md R391). -/
def State.stringLoop (compares : Bool) (body : State → State) : Nat → State → State
  | 0, s => s
  | n + 1, s =>
    let t := body (s.setR16 .cx (s.r16 .cx - 1))
    if t.repeatEnds compares then t else State.stringLoop compares body n t

/-- `StringExec(body, compares)`; no body writes CX, so CX counts the iterations. The prefix is consumed
(44_string.md R391, R392). -/
def State.stringExec (s : State) (compares : Bool) (body : State → State) : State :=
  match s.rep with
  | .none => body s
  | _ => { State.stringLoop compares body (s.r16 .cx).toNat s with rep := .none }

/-- The source address DS:SI, overridable (44_string.md R393). -/
def State.stringSource (s : State) : PAddr := s.dataAddr (s.r16 .si)

/-- The destination address ES:DI, never overridden (44_string.md R393). -/
def State.stringDest (s : State) : PAddr := phys (s.sreg .es) (s.r16 .di)

/-- One iteration of MOVS (44_string.md R394). -/
def State.movs8 (s : State) : State :=
  (((s.afterReadByte s.stringSource).writeByte s.stringDest (s.readByte s.stringSource)).advance .si 1).advance .di 1

/-- One iteration of CMPS: the flags of CMP, source minus destination (44_string.md R395). -/
def State.cmps8 (s : State) : State :=
  let t := s.afterReadByte s.stringSource
  let f := subFlags s.params.afMode (s.readByte s.stringSource) (t.readByte s.stringDest) false s.flags
  (((t.afterReadByte s.stringDest).setFlags f).advance .si 1).advance .di 1

/-- One iteration of STOS (44_string.md R396). -/
def State.stos8 (s : State) : State := (s.writeByte s.stringDest (s.r8 .al)).advance .di 1

/-- One iteration of LODS (44_string.md R397). -/
def State.lods8 (s : State) : State :=
  ((s.afterReadByte s.stringSource).setR8 .al (s.readByte s.stringSource)).advance .si 1

/-- One iteration of SCAS: the flags of CMP, accumulator minus destination (44_string.md R398). -/
def State.scas8 (s : State) : State :=
  let f := subFlags s.params.afMode (s.r8 .al) (s.readByte s.stringDest) false s.flags
  ((s.afterReadByte s.stringDest).setFlags f).advance .di 1

/-- One iteration of MOVS (44_string.md R394). -/
def State.movs16 (s : State) : State :=
  (((s.afterReadWord s.stringSource).writeWord s.stringDest (s.readWord s.stringSource)).advance .si 2).advance .di 2

/-- One iteration of CMPS: the flags of CMP, source minus destination (44_string.md R395). -/
def State.cmps16 (s : State) : State :=
  let t := s.afterReadWord s.stringSource
  let f := subFlags s.params.afMode (s.readWord s.stringSource) (t.readWord s.stringDest) false s.flags
  (((t.afterReadWord s.stringDest).setFlags f).advance .si 2).advance .di 2

/-- One iteration of STOS (44_string.md R396). -/
def State.stos16 (s : State) : State := (s.writeWord s.stringDest (s.r16 .ax)).advance .di 2

/-- One iteration of LODS (44_string.md R397). -/
def State.lods16 (s : State) : State :=
  ((s.afterReadWord s.stringSource).setR16 .ax (s.readWord s.stringSource)).advance .si 2

/-- One iteration of SCAS: the flags of CMP, accumulator minus destination (44_string.md R398). -/
def State.scas16 (s : State) : State :=
  let f := subFlags s.params.afMode (s.r16 .ax) (s.readWord s.stringDest) false s.flags
  ((s.afterReadWord s.stringDest).setFlags f).advance .di 2

/-- `MOVSB` (A4); R394. -/
def execMovsb (s : State) : Result :=
  .next (s.stringExec false State.movs8)

/-- `MOVSW` (A5); R394. -/
def execMovsw (s : State) : Result :=
  .next (s.stringExec false State.movs16)

/-- `CMPSB` (A6); R395. -/
def execCmpsb (s : State) : Result :=
  .next (s.stringExec true State.cmps8)

/-- `CMPSW` (A7); R395. -/
def execCmpsw (s : State) : Result :=
  .next (s.stringExec true State.cmps16)

/-- `STOSB` (AA); R396. -/
def execStosb (s : State) : Result :=
  .next (s.stringExec false State.stos8)

/-- `STOSW` (AB); R396. -/
def execStosw (s : State) : Result :=
  .next (s.stringExec false State.stos16)

/-- `LODSB` (AC); R397. -/
def execLodsb (s : State) : Result :=
  .next (s.stringExec false State.lods8)

/-- `LODSW` (AD); R397. -/
def execLodsw (s : State) : Result :=
  .next (s.stringExec false State.lods16)

/-- `SCASB` (AE); R398. -/
def execScasb (s : State) : Result :=
  .next (s.stringExec true State.scas8)

/-- `SCASW` (AF); R398. -/
def execScasw (s : State) : Result :=
  .next (s.stringExec true State.scas16)

end Sys2Proof.Machine
end

