-- ==== Sys2Proof/Machine/System.lean ====
section
/-! DEFINITION. Flag control and processor control (49_processor_control.md R500 to R511). IP has already moved past the instruction. -/

namespace Sys2Proof.Machine



/-- `CLC` (F8); R500. -/
def execClc (s : State) : Result :=
  .next (s.setFlags { s.flags with cf := false })

/-- `STC` (F9); R501. -/
def execStc (s : State) : Result :=
  .next (s.setFlags { s.flags with cf := true })

/-- `CMC` (F5); R502. -/
def execCmc (s : State) : Result :=
  .next (s.setFlags { s.flags with cf := !s.flags.cf })

/-- `CLI` (FA); R503. -/
def execCli (s : State) : Result :=
  .next (s.setFlags { s.flags with ief := false })

/-- `STI` (FB); R504. -/
def execSti (s : State) : Result :=
  .next (s.setFlags { s.flags with ief := true })

/-- `CLD` (FC); R505. -/
def execCld (s : State) : Result :=
  .next (s.setFlags { s.flags with df := false })

/-- `STD` (FD); R506. -/
def execStd (s : State) : Result :=
  .next (s.setFlags { s.flags with df := true })

/-- `HLT` (F4); R507. -/
def execHlt (s : State) : Result :=
  .next { s with halted := true }

/-- `WAIT` (9B); R508: nothing, it completes at once. -/
def execWait (s : State) : Result :=
  .next s

/-- `NOP` (90); R510: nothing. -/
def execNop (s : State) : Result :=
  .next s

/-- `ESC` (D8+k), q the coprocessor field in ModRM reg; R511: the ModRM byte and displacement are decoded,
nothing else. The coprocessor's bits `_k` and `_q` are ignored. -/
def execEsc (_k _q : BitVec 3) (m : Rm Reg16) (s : State) : Result :=
  .next (s.decoded m)

end Sys2Proof.Machine
end

