-- ==== Sys2Proof/Machine/Dispatch.lean ====
section
/-! DEFINITION. One arm per constructor of `Instr`, each one call of that instruction's meaning. -/

namespace Sys2Proof.Machine

def exec (i : Instr) (s : State) : Host.Outcome State Fault Refusal :=
  match i with
  | .addEbGb m r => Sys2Proof.Machine.execAddEbGb m r s
  | .addEvGv m r => Sys2Proof.Machine.execAddEvGv m r s
  | .addGbEb r m => Sys2Proof.Machine.execAddGbEb r m s
  | .addGvEv r m => Sys2Proof.Machine.execAddGvEv r m s
  | .addAlIb imm => Sys2Proof.Machine.execAddAlIb imm s
  | .addAxIv imm => Sys2Proof.Machine.execAddAxIv imm s
  | .addEbIb m imm => Sys2Proof.Machine.execAddEbIb m imm s
  | .addEvIv m imm => Sys2Proof.Machine.execAddEvIv m imm s
  | .addEvSb m imm => Sys2Proof.Machine.execAddEvSb m imm s
  | .orEbGb m r => Sys2Proof.Machine.execOrEbGb m r s
  | .orEvGv m r => Sys2Proof.Machine.execOrEvGv m r s
  | .orGbEb r m => Sys2Proof.Machine.execOrGbEb r m s
  | .orGvEv r m => Sys2Proof.Machine.execOrGvEv r m s
  | .orAlIb imm => Sys2Proof.Machine.execOrAlIb imm s
  | .orAxIv imm => Sys2Proof.Machine.execOrAxIv imm s
  | .orEbIb m imm => Sys2Proof.Machine.execOrEbIb m imm s
  | .orEvIv m imm => Sys2Proof.Machine.execOrEvIv m imm s
  | .orEvSb m imm => Sys2Proof.Machine.execOrEvSb m imm s
  | .adcEbGb m r => Sys2Proof.Machine.execAdcEbGb m r s
  | .adcEvGv m r => Sys2Proof.Machine.execAdcEvGv m r s
  | .adcGbEb r m => Sys2Proof.Machine.execAdcGbEb r m s
  | .adcGvEv r m => Sys2Proof.Machine.execAdcGvEv r m s
  | .adcAlIb imm => Sys2Proof.Machine.execAdcAlIb imm s
  | .adcAxIv imm => Sys2Proof.Machine.execAdcAxIv imm s
  | .adcEbIb m imm => Sys2Proof.Machine.execAdcEbIb m imm s
  | .adcEvIv m imm => Sys2Proof.Machine.execAdcEvIv m imm s
  | .adcEvSb m imm => Sys2Proof.Machine.execAdcEvSb m imm s
  | .sbbEbGb m r => Sys2Proof.Machine.execSbbEbGb m r s
  | .sbbEvGv m r => Sys2Proof.Machine.execSbbEvGv m r s
  | .sbbGbEb r m => Sys2Proof.Machine.execSbbGbEb r m s
  | .sbbGvEv r m => Sys2Proof.Machine.execSbbGvEv r m s
  | .sbbAlIb imm => Sys2Proof.Machine.execSbbAlIb imm s
  | .sbbAxIv imm => Sys2Proof.Machine.execSbbAxIv imm s
  | .sbbEbIb m imm => Sys2Proof.Machine.execSbbEbIb m imm s
  | .sbbEvIv m imm => Sys2Proof.Machine.execSbbEvIv m imm s
  | .sbbEvSb m imm => Sys2Proof.Machine.execSbbEvSb m imm s
  | .andEbGb m r => Sys2Proof.Machine.execAndEbGb m r s
  | .andEvGv m r => Sys2Proof.Machine.execAndEvGv m r s
  | .andGbEb r m => Sys2Proof.Machine.execAndGbEb r m s
  | .andGvEv r m => Sys2Proof.Machine.execAndGvEv r m s
  | .andAlIb imm => Sys2Proof.Machine.execAndAlIb imm s
  | .andAxIv imm => Sys2Proof.Machine.execAndAxIv imm s
  | .andEbIb m imm => Sys2Proof.Machine.execAndEbIb m imm s
  | .andEvIv m imm => Sys2Proof.Machine.execAndEvIv m imm s
  | .andEvSb m imm => Sys2Proof.Machine.execAndEvSb m imm s
  | .subEbGb m r => Sys2Proof.Machine.execSubEbGb m r s
  | .subEvGv m r => Sys2Proof.Machine.execSubEvGv m r s
  | .subGbEb r m => Sys2Proof.Machine.execSubGbEb r m s
  | .subGvEv r m => Sys2Proof.Machine.execSubGvEv r m s
  | .subAlIb imm => Sys2Proof.Machine.execSubAlIb imm s
  | .subAxIv imm => Sys2Proof.Machine.execSubAxIv imm s
  | .subEbIb m imm => Sys2Proof.Machine.execSubEbIb m imm s
  | .subEvIv m imm => Sys2Proof.Machine.execSubEvIv m imm s
  | .subEvSb m imm => Sys2Proof.Machine.execSubEvSb m imm s
  | .xorEbGb m r => Sys2Proof.Machine.execXorEbGb m r s
  | .xorEvGv m r => Sys2Proof.Machine.execXorEvGv m r s
  | .xorGbEb r m => Sys2Proof.Machine.execXorGbEb r m s
  | .xorGvEv r m => Sys2Proof.Machine.execXorGvEv r m s
  | .xorAlIb imm => Sys2Proof.Machine.execXorAlIb imm s
  | .xorAxIv imm => Sys2Proof.Machine.execXorAxIv imm s
  | .xorEbIb m imm => Sys2Proof.Machine.execXorEbIb m imm s
  | .xorEvIv m imm => Sys2Proof.Machine.execXorEvIv m imm s
  | .xorEvSb m imm => Sys2Proof.Machine.execXorEvSb m imm s
  | .cmpEbGb m r => Sys2Proof.Machine.execCmpEbGb m r s
  | .cmpEvGv m r => Sys2Proof.Machine.execCmpEvGv m r s
  | .cmpGbEb r m => Sys2Proof.Machine.execCmpGbEb r m s
  | .cmpGvEv r m => Sys2Proof.Machine.execCmpGvEv r m s
  | .cmpAlIb imm => Sys2Proof.Machine.execCmpAlIb imm s
  | .cmpAxIv imm => Sys2Proof.Machine.execCmpAxIv imm s
  | .cmpEbIb m imm => Sys2Proof.Machine.execCmpEbIb m imm s
  | .cmpEvIv m imm => Sys2Proof.Machine.execCmpEvIv m imm s
  | .cmpEvSb m imm => Sys2Proof.Machine.execCmpEvSb m imm s
  | .testEbGb m r => Sys2Proof.Machine.execTestEbGb m r s
  | .testEvGv m r => Sys2Proof.Machine.execTestEvGv m r s
  | .testAlIb imm => Sys2Proof.Machine.execTestAlIb imm s
  | .testAxIv imm => Sys2Proof.Machine.execTestAxIv imm s
  | .testEbIb m imm => Sys2Proof.Machine.execTestEbIb m imm s
  | .testEvIv m imm => Sys2Proof.Machine.execTestEvIv m imm s
  | .notEb m => Sys2Proof.Machine.execNotEb m s
  | .notEv m => Sys2Proof.Machine.execNotEv m s
  | .negEb m => Sys2Proof.Machine.execNegEb m s
  | .negEv m => Sys2Proof.Machine.execNegEv m s
  | .incEb m => Sys2Proof.Machine.execIncEb m s
  | .incEv m => Sys2Proof.Machine.execIncEv m s
  | .incR16 r => Sys2Proof.Machine.execIncR16 r s
  | .decEb m => Sys2Proof.Machine.execDecEb m s
  | .decEv m => Sys2Proof.Machine.execDecEv m s
  | .decR16 r => Sys2Proof.Machine.execDecR16 r s
  | .movEbGb m r => Sys2Proof.Machine.execMovEbGb m r s
  | .movEvGv m r => Sys2Proof.Machine.execMovEvGv m r s
  | .movGbEb r m => Sys2Proof.Machine.execMovGbEb r m s
  | .movGvEv r m => Sys2Proof.Machine.execMovGvEv r m s
  | .movEbIb m imm => Sys2Proof.Machine.execMovEbIb m imm s
  | .movEvIv m imm => Sys2Proof.Machine.execMovEvIv m imm s
  | .movR8Ib r imm => Sys2Proof.Machine.execMovR8Ib r imm s
  | .movR16Iv r imm => Sys2Proof.Machine.execMovR16Iv r imm s
  | .movSwEw g m => Sys2Proof.Machine.execMovSwEw g m s
  | .movEwSw m g => Sys2Proof.Machine.execMovEwSw m g s
  | .movAlOb a => Sys2Proof.Machine.execMovAlOb a s
  | .movAxOv a => Sys2Proof.Machine.execMovAxOv a s
  | .movObAl a => Sys2Proof.Machine.execMovObAl a s
  | .movOvAx a => Sys2Proof.Machine.execMovOvAx a s
  | .xchgEbGb m r => Sys2Proof.Machine.execXchgEbGb m r s
  | .xchgEvGv m r => Sys2Proof.Machine.execXchgEvGv m r s
  | .xchgAxR16 r => Sys2Proof.Machine.execXchgAxR16 r s
  | .lea r p => Sys2Proof.Machine.execLea r p s
  | .lds r p => Sys2Proof.Machine.execLds r p s
  | .les r p => Sys2Proof.Machine.execLes r p s
  | .xlat => Sys2Proof.Machine.execXlat s
  | .lahf => Sys2Proof.Machine.execLahf s
  | .sahf => Sys2Proof.Machine.execSahf s
  | .cbw => Sys2Proof.Machine.execCbw s
  | .cwd => Sys2Proof.Machine.execCwd s
  | .mulEb m => Sys2Proof.Machine.execMulEb m s
  | .mulEv m => Sys2Proof.Machine.execMulEv m s
  | .imulEb m => Sys2Proof.Machine.execImulEb m s
  | .imulEv m => Sys2Proof.Machine.execImulEv m s
  | .divEb m => Sys2Proof.Machine.execDivEb m s
  | .divEv m => Sys2Proof.Machine.execDivEv m s
  | .idivEb m => Sys2Proof.Machine.execIdivEb m s
  | .idivEv m => Sys2Proof.Machine.execIdivEv m s
  | .daa => Sys2Proof.Machine.execDaa s
  | .das => Sys2Proof.Machine.execDas s
  | .aaa => Sys2Proof.Machine.execAaa s
  | .aas => Sys2Proof.Machine.execAas s
  | .aam imm => Sys2Proof.Machine.execAam imm s
  | .aad imm => Sys2Proof.Machine.execAad imm s
  | .jo d => Sys2Proof.Machine.execJo d s
  | .jno d => Sys2Proof.Machine.execJno d s
  | .jb d => Sys2Proof.Machine.execJb d s
  | .jae d => Sys2Proof.Machine.execJae d s
  | .je d => Sys2Proof.Machine.execJe d s
  | .jne d => Sys2Proof.Machine.execJne d s
  | .jbe d => Sys2Proof.Machine.execJbe d s
  | .ja d => Sys2Proof.Machine.execJa d s
  | .js d => Sys2Proof.Machine.execJs d s
  | .jns d => Sys2Proof.Machine.execJns d s
  | .jp d => Sys2Proof.Machine.execJp d s
  | .jnp d => Sys2Proof.Machine.execJnp d s
  | .jl d => Sys2Proof.Machine.execJl d s
  | .jge d => Sys2Proof.Machine.execJge d s
  | .jle d => Sys2Proof.Machine.execJle d s
  | .jg d => Sys2Proof.Machine.execJg d s
  | .jmpShort d => Sys2Proof.Machine.execJmpShort d s
  | .jmpNear d => Sys2Proof.Machine.execJmpNear d s
  | .jmpFar off sg => Sys2Proof.Machine.execJmpFar off sg s
  | .jmpEv m => Sys2Proof.Machine.execJmpEv m s
  | .jmpMp p => Sys2Proof.Machine.execJmpMp p s
  | .callNear d => Sys2Proof.Machine.execCallNear d s
  | .callFar off sg => Sys2Proof.Machine.execCallFar off sg s
  | .callEv m => Sys2Proof.Machine.execCallEv m s
  | .callMp p => Sys2Proof.Machine.execCallMp p s
  | .ret => Sys2Proof.Machine.execRet s
  | .retIw n => Sys2Proof.Machine.execRetIw n s
  | .retf => Sys2Proof.Machine.execRetf s
  | .retfIw n => Sys2Proof.Machine.execRetfIw n s
  | .loopJb d => Sys2Proof.Machine.execLoopJb d s
  | .loopz d => Sys2Proof.Machine.execLoopz d s
  | .loopnz d => Sys2Proof.Machine.execLoopnz d s
  | .jcxz d => Sys2Proof.Machine.execJcxz d s
  | .movsb => Sys2Proof.Machine.execMovsb s
  | .movsw => Sys2Proof.Machine.execMovsw s
  | .cmpsb => Sys2Proof.Machine.execCmpsb s
  | .cmpsw => Sys2Proof.Machine.execCmpsw s
  | .stosb => Sys2Proof.Machine.execStosb s
  | .stosw => Sys2Proof.Machine.execStosw s
  | .lodsb => Sys2Proof.Machine.execLodsb s
  | .lodsw => Sys2Proof.Machine.execLodsw s
  | .scasb => Sys2Proof.Machine.execScasb s
  | .scasw => Sys2Proof.Machine.execScasw s
  | .rolEb1 m => Sys2Proof.Machine.execRolEb1 m s
  | .rolEv1 m => Sys2Proof.Machine.execRolEv1 m s
  | .rolEbCl m => Sys2Proof.Machine.execRolEbCl m s
  | .rolEvCl m => Sys2Proof.Machine.execRolEvCl m s
  | .rorEb1 m => Sys2Proof.Machine.execRorEb1 m s
  | .rorEv1 m => Sys2Proof.Machine.execRorEv1 m s
  | .rorEbCl m => Sys2Proof.Machine.execRorEbCl m s
  | .rorEvCl m => Sys2Proof.Machine.execRorEvCl m s
  | .rclEb1 m => Sys2Proof.Machine.execRclEb1 m s
  | .rclEv1 m => Sys2Proof.Machine.execRclEv1 m s
  | .rclEbCl m => Sys2Proof.Machine.execRclEbCl m s
  | .rclEvCl m => Sys2Proof.Machine.execRclEvCl m s
  | .rcrEb1 m => Sys2Proof.Machine.execRcrEb1 m s
  | .rcrEv1 m => Sys2Proof.Machine.execRcrEv1 m s
  | .rcrEbCl m => Sys2Proof.Machine.execRcrEbCl m s
  | .rcrEvCl m => Sys2Proof.Machine.execRcrEvCl m s
  | .shlEb1 m => Sys2Proof.Machine.execShlEb1 m s
  | .shlEv1 m => Sys2Proof.Machine.execShlEv1 m s
  | .shlEbCl m => Sys2Proof.Machine.execShlEbCl m s
  | .shlEvCl m => Sys2Proof.Machine.execShlEvCl m s
  | .shrEb1 m => Sys2Proof.Machine.execShrEb1 m s
  | .shrEv1 m => Sys2Proof.Machine.execShrEv1 m s
  | .shrEbCl m => Sys2Proof.Machine.execShrEbCl m s
  | .shrEvCl m => Sys2Proof.Machine.execShrEvCl m s
  | .sarEb1 m => Sys2Proof.Machine.execSarEb1 m s
  | .sarEv1 m => Sys2Proof.Machine.execSarEv1 m s
  | .sarEbCl m => Sys2Proof.Machine.execSarEbCl m s
  | .sarEvCl m => Sys2Proof.Machine.execSarEvCl m s
  | .pushR16 r => Sys2Proof.Machine.execPushR16 r s
  | .pushSreg g => Sys2Proof.Machine.execPushSreg g s
  | .pushEv m => Sys2Proof.Machine.execPushEv m s
  | .popR16 r => Sys2Proof.Machine.execPopR16 r s
  | .popSreg g => Sys2Proof.Machine.execPopSreg g s
  | .popEv m => Sys2Proof.Machine.execPopEv m s
  | .pushf => Sys2Proof.Machine.execPushf s
  | .popf => Sys2Proof.Machine.execPopf s
  | .inAlIb imm => Sys2Proof.Machine.execInAlIb imm s
  | .inAlDx => Sys2Proof.Machine.execInAlDx s
  | .outIbAl imm => Sys2Proof.Machine.execOutIbAl imm s
  | .outDxAl => Sys2Proof.Machine.execOutDxAl s
  | .int3 => Sys2Proof.Machine.execInt3 s
  | .intIb imm => Sys2Proof.Machine.execIntIb imm s
  | .into => Sys2Proof.Machine.execInto s
  | .iret => Sys2Proof.Machine.execIret s
  | .clc => Sys2Proof.Machine.execClc s
  | .stc => Sys2Proof.Machine.execStc s
  | .cmc => Sys2Proof.Machine.execCmc s
  | .cli => Sys2Proof.Machine.execCli s
  | .sti => Sys2Proof.Machine.execSti s
  | .cld => Sys2Proof.Machine.execCld s
  | .std => Sys2Proof.Machine.execStd s
  | .hlt => Sys2Proof.Machine.execHlt s
  | .wait => Sys2Proof.Machine.execWait s
  | .nop => Sys2Proof.Machine.execNop s
  | .esc k q m => Sys2Proof.Machine.execEsc k q m s
  | .pfxEs => Sys2Proof.Machine.execPfxEs s
  | .pfxCs => Sys2Proof.Machine.execPfxCs s
  | .pfxSs => Sys2Proof.Machine.execPfxSs s
  | .pfxDs => Sys2Proof.Machine.execPfxDs s
  | .pfxLock => Sys2Proof.Machine.execPfxLock s
  | .pfxRepnz => Sys2Proof.Machine.execPfxRepnz s
  | .pfxRepz => Sys2Proof.Machine.execPfxRepz s
  | .invalidOp b => Sys2Proof.Machine.execInvalidOp b s
  | .invalidSub b q m => Sys2Proof.Machine.execInvalidSub b q m s
  | .invalidForm b q n => Sys2Proof.Machine.execInvalidForm b q n s

end Sys2Proof.Machine
end

