-- ==== Sys2Proof/Machine/Fetch.lean ====
section
/-! DEFINITION. What `fetch` does around the execution of an instruction: the interrupt poll, the
prefix state cleared, the bytes at CS:IP, the advance past an instruction, the checks after it
(60_exceptions.md R600 to R602, R624, R631; 30_encoding.md R120, R140). -/

namespace Sys2Proof.Machine

/-- The interrupt poll at the start of every fetch (60_exceptions.md R601, R610). -/
def State.poll (s : State) : State :=
  match s.irq with
  | v :: rest =>
    if s.flags.ief then { ({ s with irq := rest } : State).serviceInterrupt v with halted := false } else s
  | [] => s

/-- The prefix state reset at the start of a fetch (10_state.md R49, 60_exceptions.md R600). -/
def State.clearPrefixes (s : State) : State := { s with segOverride := none, rep := .none, lock := false }

/-- What `FetchByte` answers: the byte at CS:IP (30_encoding.md R120). -/
def State.fetchByte (s : State) : Byte := s.readByte (phys (s.sreg .cs) s.ip)

/-- The state after `FetchByte`: one bus call, and IP, wrapping in CS, past the byte (30_encoding.md R120). -/
def State.afterFetchByte (s : State) : State := (s.afterReadByte (phys (s.sreg .cs) s.ip)).setIp (s.ip + 1)

/-- Which operand a TEST with an immediate tests, when the bytes read are all of it but that immediate: of a byte
(the left) or of a word (the right) (41_arith_logic.md R263). -/
def testOperand (bs : List Byte) : Option (Rm Reg8 ⊕ Rm Reg16) :=
  match decode (bs ++ [0]), decode (bs ++ [0, 0]) with
  | .ok (.testEbIb m _, []), _ => some (.inl m)
  | _, .ok (.testEvIv m _, []) => some (.inr m)
  | _, _ => none

/-- The TEST with an immediate whose other bytes have been read, IP past them, and the state its meaning runs at: IP
past the immediate, which the meaning fetches after it has read the operand; the immediate is what the bus answers then
(41_arith_logic.md R263, 20_memory.md R93). -/
def State.fetchTest (s : State) (o : Rm Reg8 ⊕ Rm Reg16) : Instr × State :=
  match o with
  | .inl m =>
    let u := s.setIp (s.ip + 1)
    (.testEbIb m (u.loaded8 m).imm8, u)
  | .inr m =>
    let u := s.setIp (s.ip + 2)
    (.testEvIv m (u.loaded16 m).imm16, u)

/-- The instruction that the bytes already read (`bs`) and those at CS:IP make, and the state its meaning runs at: a
byte is read exactly when the decoder needs one more, but the immediate of a TEST is left to its meaning
(20_memory.md R93, R99; 30_encoding.md R120, R123). `n` bounds the bytes still read. -/
def State.fetchInstr : Nat → List Byte → State → Option Instr × State
  | 0, _, s => (none, s)
  | n + 1, bs, s =>
    match decode (bs ++ [s.fetchByte]) with
    | .ok (i, _) => (some i, s.afterFetchByte)
    | .error _ =>
      match testOperand (bs ++ [s.fetchByte]) with
      | some o => (some (s.afterFetchByte.fetchTest o).1, (s.afterFetchByte.fetchTest o).2)
      | none => State.fetchInstr n (bs ++ [s.fetchByte]) s.afterFetchByte

/-- CS:IP recorded as `op_cs, op_ip` (60_exceptions.md R600). -/
def State.beginInstr (s : State) : State := { s with opCs := s.sreg .cs, opIp := s.ip }

/-- Whether an instruction is a prefix byte, after which the fetch goes on (30_encoding.md R140). -/
def isPrefixByte (i : Instr) : Bool :=
  match i with
  | .pfxEs | .pfxCs | .pfxSs | .pfxDs | .pfxLock | .pfxRepnz | .pfxRepz => true
  | _ => false

/-- How many prefix bytes a fetch may read before it has read every byte of CS: if all are prefix bytes, it
never ends (30_encoding.md R140, D39; log 14). -/
def prefixLimit : Nat := 65536

/-- What follows the execution of opcode byte `b`, TF having been `tf` before it: an InvalidOpcode
already raised ends the fetch; a repeat prefix left set is fatal; then the single step
(60_exceptions.md R600, R604, R624, R631). -/
def State.finish (s : State) (b : Byte) (tf : Bool) : State :=
  if s.faultRec.isSome then s
  else if s.rep != .none then s.raisePrefix b
  else if s.params.singleStep && tf then s.serviceInterrupt 1#8
  else s

/-- Bytes put into memory from CS:IP on by the host, IP wrapping in CS; no call of the bus. -/
def State.placeBytes (s : State) : Word → List Byte → State
  | _, [] => s
  | off, b :: bs =>
    State.placeBytes { s with bus := s.bus.store (phys (s.sreg .cs) off) b } (off + 1) bs

/-- The state in which a fetch reads and runs what is stored at CS:IP: bus installed, every address RAM, no
fault, not halted, no request pending (log 11). -/
def State.readyToFetch (s : State) : State :=
  { s with
    busInstalled := true, bus := { s.bus with windows := [] }, faultRec := none, halted := false, irq := [] }

end Sys2Proof.Machine
end

