-- ==== Sys2Proof/Machine/Step.lean ====
section
/-! DEFINITION. One step: one call of `fetch` (60_exceptions.md R600). -/

namespace Sys2Proof.Machine

/-- Prefixes and the instruction after them: the bytes at CS:IP are read as the decoder needs them, and what
they make is executed; after a prefix byte the fetch goes on, after an instruction `finish` ends it. `n` bounds
the prefixes and the instruction. -/
def runInstr : Nat → State → Host.Outcome State Fault Refusal
  | 0, _ => .fault .endlessPrefixes
  | n + 1, s =>
    match State.fetchInstr 6 [] s.beginInstr with
    | (none, _) => .refused .undecoded
    | (some i, u) =>
      match exec i u with
      | .next t => if isPrefixByte i then runInstr n t else .next (t.finish s.fetchByte s.flags.tf)
      | .fault r => .fault r
      | .refused r => .refused r

/-- `fetch` (60_exceptions.md R600, R602, R633; 70_reset_and_hazards.md R700). -/
def step (s : State) : Host.Outcome State Fault Refusal :=
  if s.busInstalled = false then .refused .busNotInstalled
  else if s.faultRec.isSome then .refused .faulted
  else if s.poll.halted then .next s.poll
  else runInstr prefixLimit s.poll.clearPrefixes

/-- `s` with the instruction of a table word stored where `step` fetches it, and ready to fetch it. -/
def State.withFetchWord (s : State) (nbits w : Nat) : State :=
  s.readyToFetch.placeBytes s.ip (tableBytes nbits w)

end Sys2Proof.Machine
end

