-- ==== Sys2Proof/Safety.lean ====
section
/-! DEFINITION. The terms the statements use: how a run ends, when a core can fetch, the forms of one
operation as a family, and what each instruction may write (its footprint). -/

namespace Sys2Proof.Machine

/-! ## The end of a run -/

/-- What a state says of a run that reached it (70_reset_and_hazards.md R731). -/
inductive RunStatus where
  /-- a fault record is kept: no further step -/
  | faulted
  /-- halted with IF = 0: every later fetch changes nothing -/
  | stuck
  /-- halted with IF = 1: only a request of the interrupt controller continues the run -/
  | idle
  /-- the run has not ended -/
  | running
  deriving DecidableEq, Repr

/-- The end of a run (70_reset_and_hazards.md R731). -/
def State.runStatus (s : State) : RunStatus :=
  if s.faultRec.isSome then .faulted
  else if s.halted then (if s.flags.ief then .idle else .stuck)
  else .running

/-- The core fetches: the bus is connected, no fault is kept, and it is not halted after the poll
(60_exceptions.md R600, R602; 70_reset_and_hazards.md R700). -/
def State.fetches (s : State) : Prop :=
  s.busInstalled = true ∧ s.faultRec = none ∧ s.poll.halted = false

/-- The memory's canonical form, as an invariant of the machine (log 3). -/
def State.memOk (s : State) : Prop := s.bus.wf = true

/-! ## Kinds of instruction -/

/-- The instructions that declare repeat support (30_encoding.md R153). -/
def declaresRepeat (i : Instr) : Bool :=
  match i with
  | .movsb | .movsw | .cmpsb | .cmpsw | .stosb | .stosw | .lodsb | .lodsw | .scasb | .scasw => true
  | _ => false

/-- The terms that stand for an encoding that selects no instruction (30_encoding.md R149 to R152). -/
def isInvalid (i : Instr) : Bool :=
  match i with
  | .invalidOp _ | .invalidSub _ _ _ | .invalidForm _ _ _ => true
  | _ => false

/-- The far control transfers, IRET and the instructions that can enter an interrupt: the writers of CS
(10_state.md R35, 42_muldiv_bcd.md R300). -/
def writesCs (i : Instr) : Bool :=
  match i with
  | .jmpFar _ _ | .jmpMp _ | .callFar _ _ | .callMp _ | .retf | .retfIw _ | .iret | .int3
    | .intIb _ | .into | .divEb _ | .divEv _ | .idivEb _ | .idivEv _ | .aam _ => true
  | _ => false

/-! ## The forms of one operation -/

/-- The r/m byte and byte register (30_encoding.md R142): ADD, OR, ADC, SBB, AND, SUB, XOR, CMP. -/
def AluOp.instrEbGb (op : AluOp) (m : Rm Reg8) (r : Reg8) : Instr :=
  match op with
  | .add => .addEbGb m r
  | .or => .orEbGb m r
  | .adc => .adcEbGb m r
  | .sbb => .sbbEbGb m r
  | .and => .andEbGb m r
  | .sub => .subEbGb m r
  | .xor => .xorEbGb m r
  | .cmp => .cmpEbGb m r

/-- The r/m word and word register: ADD, OR, ADC, SBB, AND, SUB, XOR, CMP. -/
def AluOp.instrEvGv (op : AluOp) (m : Rm Reg16) (r : Reg16) : Instr :=
  match op with
  | .add => .addEvGv m r
  | .or => .orEvGv m r
  | .adc => .adcEvGv m r
  | .sbb => .sbbEvGv m r
  | .and => .andEvGv m r
  | .sub => .subEvGv m r
  | .xor => .xorEvGv m r
  | .cmp => .cmpEvGv m r

/-- The byte register and r/m byte: ADD, OR, ADC, SBB, AND, SUB, XOR, CMP. -/
def AluOp.instrGbEb (op : AluOp) (r : Reg8) (m : Rm Reg8) : Instr :=
  match op with
  | .add => .addGbEb r m
  | .or => .orGbEb r m
  | .adc => .adcGbEb r m
  | .sbb => .sbbGbEb r m
  | .and => .andGbEb r m
  | .sub => .subGbEb r m
  | .xor => .xorGbEb r m
  | .cmp => .cmpGbEb r m

/-- The word register and r/m word: ADD, OR, ADC, SBB, AND, SUB, XOR, CMP. -/
def AluOp.instrGvEv (op : AluOp) (r : Reg16) (m : Rm Reg16) : Instr :=
  match op with
  | .add => .addGvEv r m
  | .or => .orGvEv r m
  | .adc => .adcGvEv r m
  | .sbb => .sbbGvEv r m
  | .and => .andGvEv r m
  | .sub => .subGvEv r m
  | .xor => .xorGvEv r m
  | .cmp => .cmpGvEv r m

/-- The AL and an immediate: ADD, OR, ADC, SBB, AND, SUB, XOR, CMP. -/
def AluOp.instrAlIb (op : AluOp) (i : Byte) : Instr :=
  match op with
  | .add => .addAlIb i
  | .or => .orAlIb i
  | .adc => .adcAlIb i
  | .sbb => .sbbAlIb i
  | .and => .andAlIb i
  | .sub => .subAlIb i
  | .xor => .xorAlIb i
  | .cmp => .cmpAlIb i

/-- The AX and an immediate: ADD, OR, ADC, SBB, AND, SUB, XOR, CMP. -/
def AluOp.instrAxIv (op : AluOp) (i : Word) : Instr :=
  match op with
  | .add => .addAxIv i
  | .or => .orAxIv i
  | .adc => .adcAxIv i
  | .sbb => .sbbAxIv i
  | .and => .andAxIv i
  | .sub => .subAxIv i
  | .xor => .xorAxIv i
  | .cmp => .cmpAxIv i

/-- The r/m byte and an immediate (30_encoding.md R143): ADD, OR, ADC, SBB, AND, SUB, XOR, CMP. -/
def AluOp.instrEbIb (op : AluOp) (m : Rm Reg8) (i : Byte) : Instr :=
  match op with
  | .add => .addEbIb m i
  | .or => .orEbIb m i
  | .adc => .adcEbIb m i
  | .sbb => .sbbEbIb m i
  | .and => .andEbIb m i
  | .sub => .subEbIb m i
  | .xor => .xorEbIb m i
  | .cmp => .cmpEbIb m i

/-- The r/m word and an immediate: ADD, OR, ADC, SBB, AND, SUB, XOR, CMP. -/
def AluOp.instrEvIv (op : AluOp) (m : Rm Reg16) (i : Word) : Instr :=
  match op with
  | .add => .addEvIv m i
  | .or => .orEvIv m i
  | .adc => .adcEvIv m i
  | .sbb => .sbbEvIv m i
  | .and => .andEvIv m i
  | .sub => .subEvIv m i
  | .xor => .xorEvIv m i
  | .cmp => .cmpEvIv m i

/-- The r/m word and a sign-extended immediate byte: ADD, OR, ADC, SBB, AND, SUB, XOR, CMP. -/
def AluOp.instrEvSb (op : AluOp) (m : Rm Reg16) (i : Byte) : Instr :=
  match op with
  | .add => .addEvSb m i
  | .or => .orEvSb m i
  | .adc => .adcEvSb m i
  | .sbb => .sbbEvSb m i
  | .and => .andEvSb m i
  | .sub => .subEvSb m i
  | .xor => .xorEvSb m i
  | .cmp => .cmpEvSb m i

/-- The group 2 forms Eb,1 (30_encoding.md R144). -/
def ShiftOp.instrEb1 (op : ShiftOp) (m : Rm Reg8) : Instr :=
  match op with
  | .rol => .rolEb1 m
  | .ror => .rorEb1 m
  | .rcl => .rclEb1 m
  | .rcr => .rcrEb1 m
  | .shl => .shlEb1 m
  | .shr => .shrEb1 m
  | .sar => .sarEb1 m

/-- The group 2 forms Ev,1 (30_encoding.md R144). -/
def ShiftOp.instrEv1 (op : ShiftOp) (m : Rm Reg16) : Instr :=
  match op with
  | .rol => .rolEv1 m
  | .ror => .rorEv1 m
  | .rcl => .rclEv1 m
  | .rcr => .rcrEv1 m
  | .shl => .shlEv1 m
  | .shr => .shrEv1 m
  | .sar => .sarEv1 m

/-- The group 2 forms Eb,CL (30_encoding.md R144). -/
def ShiftOp.instrEbCl (op : ShiftOp) (m : Rm Reg8) : Instr :=
  match op with
  | .rol => .rolEbCl m
  | .ror => .rorEbCl m
  | .rcl => .rclEbCl m
  | .rcr => .rcrEbCl m
  | .shl => .shlEbCl m
  | .shr => .shrEbCl m
  | .sar => .sarEbCl m

/-- The group 2 forms Ev,CL (30_encoding.md R144). -/
def ShiftOp.instrEvCl (op : ShiftOp) (m : Rm Reg16) : Instr :=
  match op with
  | .rol => .rolEvCl m
  | .ror => .rorEvCl m
  | .rcl => .rclEvCl m
  | .rcr => .rcrEvCl m
  | .shl => .shlEvCl m
  | .shr => .shrEvCl m
  | .sar => .sarEvCl m

/-- The conditional jumps (43_control_transfer.md R341). -/
def Cond.instr (c : Cond) (d : Byte) : Instr :=
  match c with
  | .o => .jo d
  | .no => .jno d
  | .b => .jb d
  | .ae => .jae d
  | .e => .je d
  | .ne => .jne d
  | .be => .jbe d
  | .a => .ja d
  | .s => .js d
  | .ns => .jns d
  | .p => .jp d
  | .np => .jnp d
  | .l => .jl d
  | .ge => .jge d
  | .le => .jle d
  | .g => .jg d

/-- The byte and word string instructions that do one body (44_string.md R394 to R398). -/
inductive StringOp where
  | movs | cmps | stos | lods | scas
  deriving DecidableEq, Repr

/-- The byte form. -/
def StringOp.instr8 (op : StringOp) : Instr :=
  match op with
  | .movs => .movsb
  | .cmps => .cmpsb
  | .stos => .stosb
  | .lods => .lodsb
  | .scas => .scasb

/-- The word form. -/
def StringOp.instr16 (op : StringOp) : Instr :=
  match op with
  | .movs => .movsw
  | .cmps => .cmpsw
  | .stos => .stosw
  | .lods => .lodsw
  | .scas => .scasw

/-- CMPS and SCAS also stop on the zero flag (44_string.md R391). -/
def StringOp.compares (op : StringOp) : Bool :=
  match op with
  | .cmps | .scas => true
  | .movs | .stos | .lods => false

/-! ## What the statements say of results -/

/-- What an ALU operation leaves in its destination: CMP writes nothing back (41_arith_logic.md R250). -/
def AluOp.stores {w : Nat} (op : AluOp) (a b : BitVec w) (cf : Bool) : BitVec w :=
  if op = .cmp then a else op.result a b cf

/-- What INC leaves of the value `a` in a result `r` and a state `t` (41_arith_logic.md R266, R267). -/
def State.IncLeaves {w : Nat} (s : State) (a r : BitVec w) (t : State) : Prop :=
  r.toNat = (a.toNat + 1) % 2 ^ w ∧ t.flags.cf = s.flags.cf ∧
  t.flags.ovf = decide (a.toNat = 2 ^ (w - 1) - 1) ∧ t.flags.zf = decide (r = 0) ∧ t.flags.sf = r.msb ∧
  t.flags.pf = evenParity r ∧
  t.flags.af = (if s.params.afMode = .intel then decide (a.toNat % 16 = 15) else s.flags.af)

/-- What DEC leaves of the value `a` in a result `r` and a state `t` (41_arith_logic.md R268, R269). -/
def State.DecLeaves {w : Nat} (s : State) (a r : BitVec w) (t : State) : Prop :=
  a.toNat = (r.toNat + 1) % 2 ^ w ∧ t.flags.cf = s.flags.cf ∧
  t.flags.ovf = decide (a.toNat = 2 ^ (w - 1)) ∧ t.flags.zf = decide (r = 0) ∧ t.flags.sf = r.msb ∧
  t.flags.pf = evenParity r ∧
  t.flags.af = (if s.params.afMode = .intel then decide (a.toNat % 16 = 0) else s.flags.af)

/-- What a shift or rotate of `v0` by `n` steps, at least one, leaves in a result `v` and a state `t`; OF for
other counts than 1, and AF after a shift, are undefined (45_shift_rotate.md R420 to R422). -/
def State.ShiftLeaves {w : Nat} (s : State) (op : ShiftOp) (n : Nat) (v0 v : BitVec w) (t : State) : Prop :=
  (v, t.flags.cf) = op.iter n (v0, s.flags.cf) ∧
  (n = 1 → t.flags.ovf = op.of1 v0 v t.flags.cf) ∧
  (op.isShift = true → t.flags.zf = decide (v = 0) ∧ t.flags.sf = v.msb ∧ t.flags.pf = evenParity v) ∧
  (op.isShift = false → t.flags.zf = s.flags.zf ∧ t.flags.sf = s.flags.sf ∧ t.flags.pf = s.flags.pf ∧
    t.flags.af = s.flags.af)

/-! ## What the statements say of the bus -/

/-- A byte was put at an address: memory holds it where RAM stands (20_memory.md R86, log 3). -/
def State.HoldsByte (t : State) (pa : PAddr) (v : Byte) : Prop := t.kindAt pa = .ram → t.memByte pa = some v

/-- A word was put at an address: its low byte there, its high byte at the next physical address
(20_memory.md R82). -/
def State.HoldsWord (t : State) (pa : PAddr) (v : Word) : Prop :=
  t.HoldsByte pa (lowByte v) ∧ t.HoldsByte (pa + 1) (highByte v)

/-- The word memory is known to hold at an address. -/
def State.memWord (s : State) (pa : PAddr) : Option Word :=
  match s.memByte pa, s.memByte (pa + 1) with
  | some lo, some hi => some (leWord lo hi)
  | _, _ => none

/-- Both bytes of a word at an address are RAM. -/
def State.RamWord (s : State) (pa : PAddr) : Prop := s.kindAt pa = .ram ∧ s.kindAt (pa + 1) = .ram

/-- The physical address of a ModRM memory operand (30_encoding.md R137, 20_memory.md R87). -/
def State.memAddr (s : State) (p : MemOp) : PAddr := (s.decodedMem p).dataAddr (s.ea p)

/-- The r/m byte destination of an instruction executed at `s` holds `v` in `t`. -/
def State.RmHolds8 (s t : State) (m : Rm Reg8) (v : Byte) : Prop :=
  match m with
  | .reg r => t.r8 r = v
  | .mem p => t.HoldsByte (s.memAddr p) v

/-- The r/m word destination of an instruction executed at `s` holds `v` in `t`. -/
def State.RmHolds16 (s t : State) (m : Rm Reg16) (v : Word) : Prop :=
  match m with
  | .reg r => t.r16 r = v
  | .mem p => t.HoldsWord (s.memAddr p) v

/-- The bus call that reads an r/m byte operand, none for a register (30_encoding.md R137). -/
def State.rmReads8 (s : State) (m : Rm Reg8) : List BusCall :=
  match m with
  | .reg _ => []
  | .mem p => [.readByte (s.memAddr p) (s.rmByte m)]

/-- The bus call that reads an r/m word operand, none for a register. -/
def State.rmReads16 (s : State) (m : Rm Reg16) : List BusCall :=
  match m with
  | .reg _ => []
  | .mem p => [.readWord (s.memAddr p) (s.rmWord m)]

/-- The bus call that writes an r/m byte operand, none for a register. -/
def State.rmWrites8 (s : State) (m : Rm Reg8) (v : Byte) : List BusCall :=
  match m with
  | .reg _ => []
  | .mem p => [.writeByte (s.memAddr p) v]

/-- The bus call that writes an r/m word operand, none for a register. -/
def State.rmWrites16 (s : State) (m : Rm Reg16) (v : Word) : List BusCall :=
  match m with
  | .reg _ => []
  | .mem p => [.writeWord (s.memAddr p) v]

/-- From `s` to `t` the calls `cs`, newest first, were made of the bus, and no others (20_memory.md R93). -/
def State.Calls (s t : State) (cs : List BusCall) : Prop := t.bus.calls = cs ++ s.bus.calls

/-- The bus answers the next fetches of a byte at CS:IP with these bytes, in turn (30_encoding.md R120). -/
def State.Reads : List Byte → State → Prop
  | [], _ => True
  | b :: bs, s => s.fetchByte = b ∧ State.Reads bs s.afterFetchByte

/-- The state after that many bytes at CS:IP are fetched (30_encoding.md R120). -/
def State.afterBytes : Nat → State → State
  | 0, s => s
  | n + 1, s => State.afterBytes n s.afterFetchByte

/-- How many bytes of an instruction the fetch reads: all of them, but not the immediate of a TEST, which its meaning
reads after the operand (41_arith_logic.md R263). -/
def fetchedBytes (i : Instr) : Nat :=
  match i with
  | .testEbIb _ _ => (encode i).length - 1
  | .testEvIv _ _ => (encode i).length - 2
  | _ => (encode i).length

/-- The state at which an instruction that stands at CS:IP is executed: its bytes fetched, IP past all of them
(10_state.md R36). -/
def State.atExec (s : State) (i : Instr) : State :=
  (s.afterBytes (fetchedBytes i)).setIp (s.ip + BitVec.ofNat 16 (encode i).length)

/-- The bus answers the fetches from CS:IP on with the bytes of an instruction, the immediate of a TEST after its
operand is read. -/
def State.Presents (s : State) (i : Instr) : Prop :=
  s.Reads ((encode i).take (fetchedBytes i)) ∧
  match i with
  | .testEbIb m b => ((s.atExec i).loaded8 m).imm8 = b
  | .testEvIv m w => ((s.atExec i).loaded16 m).imm16 = w
  | _ => True

/-! ## Footprints: bytes of memory -/

/-- The byte an r/m byte destination stores to, none for a register. -/
def State.rmBytes8 (s : State) (m : Rm Reg8) : List PAddr :=
  match m with
  | .reg _ => []
  | .mem p => [s.memAddr p]

/-- The two bytes of a word at a physical address (20_memory.md R82). -/
def wordBytes (pa : PAddr) : List PAddr := [pa, pa + 1]

/-- The bytes an r/m word destination stores to, none for a register. -/
def State.rmBytes16 (s : State) (m : Rm Reg16) : List PAddr :=
  match m with
  | .reg _ => []
  | .mem p => wordBytes (s.memAddr p)

/-- The bytes the next `n` pushes store to, none where `n` is 0 (46_stack.md R450). -/
def State.pushBytes (s : State) : Nat → List PAddr
  | 0 => []
  | n + 1 => s.pushBytes n ++ wordBytes (phys (s.sreg .ss) (s.r16 .sp - BitVec.ofNat 16 (2 * (n + 1))))

/-- How many bodies a MOVS, STOS or LODS runs: CX under a repeat prefix, else one
(44_string.md R391, R392). -/
def State.bodies (s : State) : Nat := if s.rep = .none then 1 else (s.r16 .cx).toNat

/-- DI as the `k`-th body finds it, the first being 0, for a width of `n` bytes (44_string.md R390). -/
def State.diAt (s : State) (n : Word) (k : Nat) : Word :=
  if s.flags.df then s.r16 .di - n * BitVec.ofNat 16 k else s.r16 .di + n * BitVec.ofNat 16 k

/-- Where the `k`-th body of a MOVS or STOS of `n` bytes stores (44_string.md R393). -/
def State.destAt (s : State) (n : Word) (k : Nat) : PAddr := phys (s.sreg .es) (s.diAt n k)

/-- Whether DIV, IDIV or AAM by this divisor is a divide error (42_muldiv_bcd.md R303, R304, R311). -/
def State.div8Faults (s : State) (d : Byte) : Bool :=
  d == 0 || decide ((s.r16 .ax).toNat / d.toNat > 0xFF)

/-- See `State.div8Faults`. -/
def State.div16Faults (s : State) (d : Word) : Bool :=
  d == 0 || decide (((s.r16 .dx).toNat * 0x10000 + (s.r16 .ax).toNat) / d.toNat > 0xFFFF)

/-- See `State.div8Faults`. -/
def State.idiv8Faults (s : State) (d : Byte) : Bool :=
  d == 0 || s.idivOverflows 8 ((s.r16 .ax).toInt.tdiv d.toInt)

/-- See `State.div8Faults`. -/
def State.idiv16Faults (s : State) (d : Word) : Bool :=
  d == 0 || s.idivOverflows 16 (s.dxAx.toInt.tdiv d.toInt)

/-- Whether the instruction enters an interrupt at this state: INT3, INT, INTO with OF = 1, and a
divide error (48_interrupt_instr.md R491 to R493, 42_muldiv_bcd.md R300). -/
def State.entersInterrupt (s : State) (i : Instr) : Bool :=
  match i with
  | .int3 | .intIb _ => true
  | .into => s.flags.ovf
  | .divEb m => s.div8Faults (s.rmByte m)
  | .divEv m => s.div16Faults (s.rmWord m)
  | .idivEb m => s.idiv8Faults (s.rmByte m)
  | .idivEv m => s.idiv16Faults (s.rmWord m)
  | .aam b => b == 0
  | _ => false

/-- Every byte of memory the instruction stores to, executed at `s`: all that it may change. -/
def State.storedBytes (s : State) (i : Instr) : List PAddr :=
  match i with
  | .addEbGb m _ | .addEbIb m _ | .orEbGb m _ | .orEbIb m _ | .adcEbGb m _ | .adcEbIb m _
    | .sbbEbGb m _ | .sbbEbIb m _ | .andEbGb m _ | .andEbIb m _ | .subEbGb m _ | .subEbIb m _
    | .xorEbGb m _ | .xorEbIb m _ | .notEb m | .negEb m | .incEb m | .decEb m | .rolEb1 m
    | .rolEbCl m | .rorEb1 m | .rorEbCl m | .rclEb1 m | .rclEbCl m | .rcrEb1 m | .rcrEbCl m
    | .shlEb1 m | .shlEbCl m | .shrEb1 m | .shrEbCl m | .sarEb1 m | .sarEbCl m | .movEbGb m _
    | .movEbIb m _ | .xchgEbGb m _ => s.rmBytes8 m
  | .addEvGv m _ | .addEvIv m _ | .addEvSb m _ | .orEvGv m _ | .orEvIv m _ | .orEvSb m _
    | .adcEvGv m _ | .adcEvIv m _ | .adcEvSb m _ | .sbbEvGv m _ | .sbbEvIv m _ | .sbbEvSb m _
    | .andEvGv m _ | .andEvIv m _ | .andEvSb m _ | .subEvGv m _ | .subEvIv m _ | .subEvSb m _
    | .xorEvGv m _ | .xorEvIv m _ | .xorEvSb m _ | .notEv m | .negEv m | .incEv m | .decEv m
    | .rolEv1 m | .rolEvCl m | .rorEv1 m | .rorEvCl m | .rclEv1 m | .rclEvCl m | .rcrEv1 m
    | .rcrEvCl m | .shlEv1 m | .shlEvCl m | .shrEv1 m | .shrEvCl m | .sarEv1 m | .sarEvCl m
    | .movEvGv m _ | .movEvIv m _ | .movEwSw m _ | .xchgEvGv m _ | .popEv m => s.rmBytes16 m
  | .movObAl a => [s.dataAddr a]
  | .movOvAx a => wordBytes (s.dataAddr a)
  | .pushR16 _ | .pushSreg _ | .pushEv _ | .pushf | .callNear _ | .callEv _ => s.pushBytes 1
  | .callFar _ _ | .callMp _ => s.pushBytes 2
  | .movsb | .stosb => (List.range s.bodies).map (s.destAt 1)
  | .movsw | .stosw => (List.range s.bodies).flatMap fun k => wordBytes (s.destAt 2 k)
  | i => if s.entersInterrupt i then s.pushBytes 3 else []

/-! ## Footprints: registers -/

/-- The word register an r/m word destination is, none for memory. -/
def rmReg16 (m : Rm Reg16) : List Reg16 :=
  match m with
  | .reg r => [r]
  | .mem _ => []

/-- The byte register an r/m byte destination is, none for memory. -/
def rmReg8 (m : Rm Reg8) : List Reg8 :=
  match m with
  | .reg r => [r]
  | .mem _ => []

/-- CX when a repeat prefix counts it down (44_string.md R391). -/
def State.repeatCounter (s : State) : List Reg16 := if s.rep = .none then [] else [.cx]

/-- Every word register the instruction may write, other than through a byte half. -/
def State.writtenRegs (s : State) (i : Instr) : List Reg16 :=
  match i with
  | .addEvGv m _ | .addEvIv m _ | .addEvSb m _ | .orEvGv m _ | .orEvIv m _ | .orEvSb m _
    | .adcEvGv m _ | .adcEvIv m _ | .adcEvSb m _ | .sbbEvGv m _ | .sbbEvIv m _ | .sbbEvSb m _
    | .andEvGv m _ | .andEvIv m _ | .andEvSb m _ | .subEvGv m _ | .subEvIv m _ | .subEvSb m _
    | .xorEvGv m _ | .xorEvIv m _ | .xorEvSb m _ | .notEv m | .negEv m | .incEv m | .decEv m
    | .rolEv1 m | .rolEvCl m | .rorEv1 m | .rorEvCl m | .rclEv1 m | .rclEvCl m | .rcrEv1 m
    | .rcrEvCl m | .shlEv1 m | .shlEvCl m | .shrEv1 m | .shrEvCl m | .sarEv1 m | .sarEvCl m
    | .movEvGv m _ | .movEvIv m _ | .movEwSw m _ => rmReg16 m
  | .addGvEv r _ | .orGvEv r _ | .adcGvEv r _ | .sbbGvEv r _ | .andGvEv r _ | .subGvEv r _
    | .xorGvEv r _ | .movGvEv r _ | .movR16Iv r _ | .lea r _ | .lds r _ | .les r _ | .incR16 r
    | .decR16 r => [r]
  | .addAxIv _ | .orAxIv _ | .adcAxIv _ | .sbbAxIv _ | .andAxIv _ | .subAxIv _ | .xorAxIv _
    | .movAxOv _ | .cbw | .mulEb _ | .imulEb _ => [.ax]
  | .xchgEvGv m r => r :: rmReg16 m
  | .xchgAxR16 r => [.ax, r]
  | .cwd => [.dx]
  | .mulEv _ | .imulEv _ => [.ax, .dx]
  | .divEv m => if s.entersInterrupt (.divEv m) then [.sp] else [.ax, .dx]
  | .idivEv m => if s.entersInterrupt (.idivEv m) then [.sp] else [.ax, .dx]
  | .popR16 r => [.sp, r]
  | .popEv m => .sp :: rmReg16 m
  | .pushR16 _ | .pushSreg _ | .pushEv _ | .popSreg _ | .pushf | .popf => [.sp]
  | .callNear _ | .callFar _ _ | .callEv _ | .callMp _ | .ret | .retIw _ | .retf | .retfIw _ | .iret => [.sp]
  | .loopJb _ | .loopz _ | .loopnz _ => [.cx]
  | .movsb | .movsw | .cmpsb | .cmpsw => [.si, .di] ++ s.repeatCounter
  | .stosb | .stosw | .scasb | .scasw => .di :: s.repeatCounter
  | .lodsb => .si :: s.repeatCounter
  | .lodsw => [.ax, .si] ++ s.repeatCounter
  | i => if s.entersInterrupt i then [.sp] else []

/-- Every byte register the instruction may write as a byte; its other half is kept
(10_state.md R31). -/
def State.writtenHalves (s : State) (i : Instr) : List Reg8 :=
  match i with
  | .addEbGb m _ | .addEbIb m _ | .orEbGb m _ | .orEbIb m _ | .adcEbGb m _ | .adcEbIb m _
    | .sbbEbGb m _ | .sbbEbIb m _ | .andEbGb m _ | .andEbIb m _ | .subEbGb m _ | .subEbIb m _
    | .xorEbGb m _ | .xorEbIb m _ | .notEb m | .negEb m | .incEb m | .decEb m | .rolEb1 m
    | .rolEbCl m | .rorEb1 m | .rorEbCl m | .rclEb1 m | .rclEbCl m | .rcrEb1 m | .rcrEbCl m
    | .shlEb1 m | .shlEbCl m | .shrEb1 m | .shrEbCl m | .sarEb1 m | .sarEbCl m | .movEbGb m _
    | .movEbIb m _ => rmReg8 m
  | .addGbEb r _ | .orGbEb r _ | .adcGbEb r _ | .sbbGbEb r _ | .andGbEb r _ | .subGbEb r _
    | .xorGbEb r _ | .movGbEb r _ | .movR8Ib r _ => [r]
  | .addAlIb _ | .orAlIb _ | .adcAlIb _ | .sbbAlIb _ | .andAlIb _ | .subAlIb _ | .xorAlIb _
    | .movAlOb _ | .xlat | .daa | .das | .inAlIb _ | .inAlDx | .lodsb => [.al]
  | .xchgEbGb m r => r :: rmReg8 m
  | .lahf => [.ah]
  | .aaa | .aas | .aad _ => [.al, .ah]
  | .aam b => if b = 0 then [] else [.al, .ah]
  | .divEb m => if s.entersInterrupt (.divEb m) then [] else [.al, .ah]
  | .idivEb m => if s.entersInterrupt (.idivEb m) then [] else [.al, .ah]
  | _ => []

/-- Every segment register the instruction may write (10_state.md R35). -/
def State.writtenSegs (s : State) (i : Instr) : List SegReg :=
  match i with
  | .movSwEw g _ | .popSreg g => [g]
  | .lds _ _ => [.ds]
  | .les _ _ => [.es]
  | .jmpFar _ _ | .jmpMp _ | .callFar _ _ | .callMp _ | .retf | .retfIw _ | .iret => [.cs]
  | i => if s.entersInterrupt i then [.cs] else []

/-! ## Footprints: flags -/

/-- CF, OF, SF, ZF, PF and AF: the six flags an addition or subtraction writes. -/
def arithFlags : List FlagName := [.cf, .ovf, .sf, .zf, .pf, .af]

/-- Every flag the instruction may write, the undefined ones among them (the "Flags written" line of
each instruction's rule). -/
def State.writtenFlags (s : State) (i : Instr) : List FlagName :=
  match i with
  | .addEbGb _ _ | .addEvGv _ _ | .addGbEb _ _ | .addGvEv _ _ | .addAlIb _ | .addAxIv _
    | .addEbIb _ _ | .addEvIv _ _ | .addEvSb _ _ | .adcEbGb _ _ | .adcEvGv _ _ | .adcGbEb _ _
    | .adcGvEv _ _ | .adcAlIb _ | .adcAxIv _ | .adcEbIb _ _ | .adcEvIv _ _ | .adcEvSb _ _
    | .subEbGb _ _ | .subEvGv _ _ | .subGbEb _ _ | .subGvEv _ _ | .subAlIb _ | .subAxIv _
    | .subEbIb _ _ | .subEvIv _ _ | .subEvSb _ _ | .sbbEbGb _ _ | .sbbEvGv _ _ | .sbbGbEb _ _
    | .sbbGvEv _ _ | .sbbAlIb _ | .sbbAxIv _ | .sbbEbIb _ _ | .sbbEvIv _ _ | .sbbEvSb _ _
    | .cmpEbGb _ _ | .cmpEvGv _ _ | .cmpGbEb _ _ | .cmpGvEv _ _ | .cmpAlIb _ | .cmpAxIv _
    | .cmpEbIb _ _ | .cmpEvIv _ _ | .cmpEvSb _ _ | .negEb _ | .negEv _ => arithFlags
  | .andEbGb _ _ | .andEvGv _ _ | .andGbEb _ _ | .andGvEv _ _ | .andAlIb _ | .andAxIv _
    | .andEbIb _ _ | .andEvIv _ _ | .andEvSb _ _ | .orEbGb _ _ | .orEvGv _ _ | .orGbEb _ _
    | .orGvEv _ _ | .orAlIb _ | .orAxIv _ | .orEbIb _ _ | .orEvIv _ _ | .orEvSb _ _
    | .xorEbGb _ _ | .xorEvGv _ _ | .xorGbEb _ _ | .xorGvEv _ _ | .xorAlIb _ | .xorAxIv _
    | .xorEbIb _ _ | .xorEvIv _ _ | .xorEvSb _ _ | .testEbGb _ _ | .testEvGv _ _ | .testAlIb _
    | .testAxIv _ | .testEbIb _ _ | .testEvIv _ _ => [.cf, .ovf, .sf, .zf, .pf]
  | .notEb _ | .notEv _ => if s.params.notSetsFlags then [.cf, .ovf, .sf, .zf, .pf] else []
  | .incEb _ | .incEv _ | .incR16 _ | .decEb _ | .decEv _ | .decR16 _ => [.ovf, .sf, .zf, .pf, .af]
  | .sahf => [.sf, .zf, .af, .pf, .cf]
  | .mulEb _ | .mulEv _ | .imulEb _ | .imulEv _ => arithFlags
  | .daa | .das | .aaa | .aas | .aad _ => arithFlags
  | .divEb m => if s.entersInterrupt (.divEb m) then [.tf, .ief] else arithFlags
  | .divEv m => if s.entersInterrupt (.divEv m) then [.tf, .ief] else arithFlags
  | .idivEb m => if s.entersInterrupt (.idivEb m) then [.tf, .ief] else arithFlags
  | .idivEv m => if s.entersInterrupt (.idivEv m) then [.tf, .ief] else arithFlags
  | .aam b => if b = 0 then [.tf, .ief] else arithFlags
  | .cmpsb | .cmpsw | .scasb | .scasw => arithFlags
  | .rolEb1 _ | .rolEv1 _ | .rolEbCl _ | .rolEvCl _ | .rorEb1 _ | .rorEv1 _ | .rorEbCl _
    | .rorEvCl _ | .rclEb1 _ | .rclEv1 _ | .rclEbCl _ | .rclEvCl _ | .rcrEb1 _ | .rcrEv1 _
    | .rcrEbCl _ | .rcrEvCl _ => [.cf, .ovf]
  | .shlEb1 _ | .shlEv1 _ | .shlEbCl _ | .shlEvCl _ | .shrEb1 _ | .shrEv1 _ | .shrEbCl _
    | .shrEvCl _ | .sarEb1 _ | .sarEv1 _ | .sarEbCl _ | .sarEvCl _ => arithFlags
  | .popf | .iret => [.cf, .pf, .af, .zf, .sf, .tf, .ief, .df, .ovf]
  | .clc | .stc | .cmc => [.cf]
  | .cli | .sti => [.ief]
  | .cld | .std => [.df]
  | i => if s.entersInterrupt i then [.tf, .ief] else []

/-- The flags the instruction leaves undefined, in the order they are drawn (10_state.md R48;
42_muldiv_bcd.md R301 to R311; 45_shift_rotate.md R420 to R422). -/
def State.undefinedFlags (s : State) (i : Instr) : List FlagName :=
  match i with
  | .mulEb _ | .mulEv _ | .imulEb _ | .imulEv _ => [.sf, .zf, .af, .pf]
  | .divEb _ | .divEv _ | .idivEb _ | .idivEv _ =>
    if s.entersInterrupt i then [] else [.cf, .ovf, .sf, .zf, .af, .pf]
  | .daa | .das => [.ovf]
  | .aaa | .aas => [.ovf, .sf, .zf, .pf]
  | .aad _ => [.ovf, .af, .cf]
  | .aam b => if b = 0 then [] else [.ovf, .af, .cf]
  | .shlEb1 _ | .shlEv1 _ | .shrEb1 _ | .shrEv1 _ | .sarEb1 _ | .sarEv1 _ => [.af]
  | .rolEbCl _ | .rolEvCl _ | .rorEbCl _ | .rorEvCl _ | .rclEbCl _ | .rclEvCl _ | .rcrEbCl _ | .rcrEvCl _ =>
    if (s.r8 .cl).toNat > 1 then [.ovf] else []
  | .shlEbCl _ | .shlEvCl _ | .shrEbCl _ | .shrEvCl _ | .sarEbCl _ | .sarEvCl _ =>
    if (s.r8 .cl).toNat > 1 then [.ovf, .af] else if s.r8 .cl = 1 then [.af] else []
  | _ => []

/-! ## Footprints: the rest of the state -/

/-- The instructions that write IP beyond the advance of the fetch. -/
def State.movesIp (s : State) (i : Instr) : Bool :=
  match i with
  | .jo _ | .jno _ | .jb _ | .jae _ | .je _ | .jne _ | .jbe _ | .ja _ | .js _ | .jns _ | .jp _
    | .jnp _ | .jl _ | .jge _ | .jle _ | .jg _ | .jmpShort _ | .jmpNear _ | .jmpFar _ _
    | .jmpEv _ | .jmpMp _ | .callNear _ | .callFar _ _ | .callEv _ | .callMp _ | .ret | .retIw _
    | .retf | .retfIw _ | .loopJb _ | .loopz _ | .loopnz _ | .jcxz _ | .iret => true
  | i => s.entersInterrupt i

/-- The r/m operand the addressing decoder decodes, where it is a memory operand
(30_encoding.md R130). -/
def rmMem {R : Type} (m : Rm R) : Option MemOp :=
  match m with
  | .reg _ => none
  | .mem p => some p

/-- The memory operand the instruction's ModRM byte encodes, where it has one. -/
def memOperand (i : Instr) : Option MemOp :=
  match i with
  | .addEbGb m _ | .addGbEb _ m | .addEbIb m _ | .orEbGb m _ | .orGbEb _ m | .orEbIb m _
    | .adcEbGb m _ | .adcGbEb _ m | .adcEbIb m _ | .sbbEbGb m _ | .sbbGbEb _ m | .sbbEbIb m _
    | .andEbGb m _ | .andGbEb _ m | .andEbIb m _ | .subEbGb m _ | .subGbEb _ m | .subEbIb m _
    | .xorEbGb m _ | .xorGbEb _ m | .xorEbIb m _ | .cmpEbGb m _ | .cmpGbEb _ m | .cmpEbIb m _
    | .testEbGb m _ | .testEbIb m _ | .notEb m | .negEb m | .incEb m | .decEb m | .movEbGb m _
    | .movGbEb _ m | .movEbIb m _ | .xchgEbGb m _ | .mulEb m | .imulEb m | .divEb m | .idivEb m
    | .rolEb1 m | .rolEbCl m | .rorEb1 m | .rorEbCl m | .rclEb1 m | .rclEbCl m | .rcrEb1 m
    | .rcrEbCl m | .shlEb1 m | .shlEbCl m | .shrEb1 m | .shrEbCl m | .sarEb1 m | .sarEbCl m =>
      rmMem m
  | .addEvGv m _ | .addGvEv _ m | .addEvIv m _ | .addEvSb m _ | .orEvGv m _ | .orGvEv _ m
    | .orEvIv m _ | .orEvSb m _ | .adcEvGv m _ | .adcGvEv _ m | .adcEvIv m _ | .adcEvSb m _
    | .sbbEvGv m _ | .sbbGvEv _ m | .sbbEvIv m _ | .sbbEvSb m _ | .andEvGv m _ | .andGvEv _ m
    | .andEvIv m _ | .andEvSb m _ | .subEvGv m _ | .subGvEv _ m | .subEvIv m _ | .subEvSb m _
    | .xorEvGv m _ | .xorGvEv _ m | .xorEvIv m _ | .xorEvSb m _ | .cmpEvGv m _ | .cmpGvEv _ m
    | .cmpEvIv m _ | .cmpEvSb m _ | .testEvGv m _ | .testEvIv m _ | .notEv m | .negEv m
    | .incEv m | .decEv m | .movEvGv m _ | .movGvEv _ m | .movEvIv m _ | .movSwEw _ m
    | .movEwSw m _ | .xchgEvGv m _ | .mulEv m | .imulEv m | .divEv m | .idivEv m | .jmpEv m
    | .callEv m | .rolEv1 m | .rolEvCl m | .rorEv1 m | .rorEvCl m | .rclEv1 m | .rclEvCl m
    | .rcrEv1 m | .rcrEvCl m | .shlEv1 m | .shlEvCl m | .shrEv1 m | .shrEvCl m | .sarEv1 m
    | .sarEvCl m | .pushEv m | .popEv m | .esc _ _ m => rmMem m
  | .invalidSub _ _ m => rmMem m
  | .lea _ p | .lds _ p | .les _ p | .jmpMp p | .callMp p => some p
  | _ => none

/-- Whether executing the instruction may call the bus: it has a memory operand it accesses, uses the stack, a string or
a port, enters an interrupt, or is a TEST with an immediate, which it fetches (20_memory.md R93). -/
def State.callsBus (s : State) (i : Instr) : Bool :=
  match i with
  | .lea _ _ | .esc _ _ _ | .invalidSub _ _ _ => false
  | .testEbIb _ _ | .testEvIv _ _
    | .movAlOb _ | .movAxOv _ | .movObAl _ | .movOvAx _ | .xlat | .pushR16 _ | .pushSreg _ | .pushEv _ | .pushf
    | .popR16 _ | .popSreg _ | .popEv _ | .popf | .callNear _ | .callFar _ _ | .callEv _ | .callMp _ | .ret
    | .retIw _ | .retf | .retfIw _ | .iret | .movsb | .movsw | .cmpsb | .cmpsw | .stosb | .stosw | .lodsb
    | .lodsw | .scasb | .scasw | .inAlIb _ | .inAlDx | .outIbAl _ | .outDxAl => true
  | i => s.entersInterrupt i || (memOperand i).isSome

/-- `seg_override` after the decoder: SS for a BP-based memory operand when none is in force, else as it
was; a segment prefix sets it (10_state.md R50, 30_encoding.md R134, R139). -/
def State.overrideAfter (s : State) (i : Instr) : Option SegReg :=
  match i with
  | .pfxEs => some .es
  | .pfxCs => some .cs
  | .pfxSs => some .ss
  | .pfxDs => some .ds
  | i =>
    match memOperand i with
    | some p => if stackBased p ∧ s.segOverride = none then some .ss else s.segOverride
    | none => s.segOverride

/-- `rep` after the instruction: set by its prefixes, consumed by the string instructions
(30_encoding.md R139, 44_string.md R391). -/
def State.repAfter (s : State) (i : Instr) : Rep :=
  match i with
  | .pfxRepz => .repz
  | .pfxRepnz => .repnz
  | i => if declaresRepeat i then .none else s.rep

end Sys2Proof.Machine
end

