-- ==== Sys2Proof/Certificates/Slice0/Obligations.lean ====
section
/-! DEFINITION. The statements for the provers, each a proposition about every state (or every encoding)
unless it says otherwise. `exec i s` is one instruction executed at `s`, whose IP already stands after
the instruction's bytes (10_state.md R36). -/

open Sys2Proof Sys2Proof.Machine

/-! ## Encoding -/

/-- Words written out from the encodings of 30_encoding.md and the instruction rules, one or more for each
family. Which words exist follows the spec's decisions D1 and D2 (log 10). -/
def Obligations.DecodesSpecWords : Prop :=
  decode [0x04, 0x64] = .ok (.addAlIb 0x64, []) ∧
  decode [0x83, 0xE0, 0xF0] = .ok (.andEvSb (.reg .ax) 0xF0, []) ∧
  decode [0xF7, 0x16, 0x00, 0x03] = .ok (.notEv (.mem (.direct 0x0300)), []) ∧
  decode [0x8B, 0x07] = .ok (.movGvEv .ax (.mem (.base .bx)), []) ∧
  decode [0xC7, 0x06, 0x00, 0x02, 0x34, 0x12] = .ok (.movEvIv (.mem (.direct 0x0200)) 0x1234, []) ∧
  decode [0xF6, 0xF3] = .ok (.divEb (.reg .bl), []) ∧
  decode [0xD5, 0x0A] = .ok (.aad 0x0A, []) ∧
  decode [0xEA, 0x5B, 0xE0, 0x00, 0xF0] = .ok (.jmpFar 0xE05B 0xF000, []) ∧
  decode [0xE2, 0xFE] = .ok (.loopJb 0xFE, []) ∧
  decode [0xA4] = .ok (.movsb, []) ∧
  decode [0xD1, 0xE8] = .ok (.shrEv1 (.reg .ax), []) ∧
  decode [0x8F, 0xC4] = .ok (.popEv (.reg .sp), []) ∧
  decode [0xE4, 0x60] = .ok (.inAlIb 0x60, []) ∧
  decode [0xCD, 0x21] = .ok (.intIb 0x21, []) ∧
  decode [0xDD, 0x46, 0xFE] = .ok (.esc 5 0 (.mem (.disp8 .bp 0xFE)), []) ∧
  decode [0xF3, 0xA4] = .ok (.pfxRepz, [0xA4]) ∧
  decode [0x0F, 0x90] = .ok (.invalidOp 0x0F, [0x90])

/-- Decoding the encoding of a well-formed instruction gives it back, with every operand at every value, and
leaves the bytes after it. Which encodings are INVALID follows the spec's decisions D1, D2, D24, D25, D26,
D44 (log 10). -/
def Obligations.DecodeOfEncode : Prop :=
  ∀ (i : Instr) (rest : List Byte), i.wf = true → decode (encode i ++ rest) = .ok (i, rest)

/-- What decodes is well-formed, and its encoding is exactly the bytes consumed: no byte sequence has two
meanings and no bit is ignored. -/
def Obligations.EncodeOfDecode : Prop :=
  ∀ (bs : List Byte) (i : Instr) (rest : List Byte),
    decode bs = .ok (i, rest) → i.wf = true ∧ encode i ++ rest = bs

/-- Every encoding is an instruction, a prefix or an invalid row, one to six bytes long: six bytes always
decode (30_encoding.md R123, R154, R157). That an INVALID row is an instruction of its own is the model's
choice (log 9). -/
def Obligations.SixBytesAlwaysDecode : Prop :=
  ∀ bs : List Byte, bs.length = 6 →
    ∃ i rest, decode bs = .ok (i, rest) ∧ rest.length < 6

/-! ## Reset -/

/-- Whatever the bus holds and whatever stands behind its addresses, the core fetches after reset, its first byte at
0xFFFF0 (70_reset_and_hazards.md R701); the sixteen bytes up to the top of the space follow, and after IP passes
0x000F the fetch continues at 0x00000. That the bus is connected at reset is the model's choice (log 8); that IF is
clear there, so that no request is served first, is the spec's decision D10 (log 10). -/
def Obligations.ResetEntryPoint : Prop :=
  (∀ b : Bus, ({ State.reset with bus := b } : State).fetches ∧
    ({ State.reset with bus := b } : State).poll.clearPrefixes.fetchByte = b.answer 0xFFFF0) ∧
  (∀ k : Word, k.toNat ≤ 0xF →
    (phys (State.reset.sreg .cs) (State.reset.ip + k)).toNat = 0xFFFF0 + k.toNat) ∧
  phys (State.reset.sreg .cs) (State.reset.ip + 0x10) = 0

/-- The state after construction, for every value of the general registers, which the spec leaves open. The cleared
flags, `halted` and `fault` are the spec's own decisions. The model's choices are the zero general registers of
`State.reset` (log 1), op_cs and op_ip 0 (log 2), a bus of which nothing is known, every address RAM, with no
answer ready, no call made and no free answer given (logs 3, 5), no request pending (log 4), no undefined flag
drawn (log 6), the parameters at their defaults (log 7) and the bus installed (log 8). -/
def Obligations.ResetState : Prop :=
  (∀ gpr : Regs,
    let s := State.resetWith gpr
    s.sreg .cs = 0xFFFF ∧ s.sreg .ds = 0 ∧ s.sreg .es = 0 ∧ s.sreg .ss = 0 ∧ s.ip = 0 ∧
    (∀ r, s.r16 r = gpr.get r) ∧ (∀ n, s.flags.get n = false) ∧ s.packed = 0xF002 ∧
    s.segOverride = none ∧ s.rep = .none ∧ s.lock = false ∧ s.halted = false ∧ s.faultRec = none ∧
    s.opCs = 0 ∧ s.opIp = 0 ∧ s.irq = [] ∧ s.draws = 0 ∧ s.busInstalled = true ∧
    s.params = defaultParams ∧
    defaultParams = { flagsForcedOnes := 0xF002, singleStep := false, afMode := .intel, idivAcceptMin := true,
                      notSetsFlags := true, undefFlags := .draw } ∧
    s.bus = { mem := [], windows := [], memIn := [], portIn := [], calls := [], draws := 0 } ∧
    (∀ pa, s.memByte pa = none ∧ s.kindAt pa = .ram)) ∧
  State.reset = State.resetWith Regs.zero

/-- The memory's canonical form holds at reset (log 3). -/
def Obligations.ResetMemoryForm : Prop := State.reset.memOk

/-! ## Addresses, memory, registers, flags -/

/-- R81: physical addresses are formed modulo 2^20. -/
def Obligations.PhysicalAddress : Prop :=
  (∀ seg off : Word, (phys seg off).toNat = (seg.toNat * 16 + off.toNat) % 2 ^ 20) ∧
  phys 0xFFFF 0x0010 = 0x00000

/-- R31: the byte registers are views of the halves of AX, BX, CX and DX. -/
def Obligations.ByteHalves : Prop :=
  (∀ s : State,
    (s.r8 .al).toNat = (s.r16 .ax).toNat % 256 ∧ (s.r8 .ah).toNat = (s.r16 .ax).toNat / 256 ∧
    (s.r8 .bl).toNat = (s.r16 .bx).toNat % 256 ∧ (s.r8 .bh).toNat = (s.r16 .bx).toNat / 256 ∧
    (s.r8 .cl).toNat = (s.r16 .cx).toNat % 256 ∧ (s.r8 .ch).toNat = (s.r16 .cx).toNat / 256 ∧
    (s.r8 .dl).toNat = (s.r16 .dx).toNat % 256 ∧ (s.r8 .dh).toNat = (s.r16 .dx).toNat / 256) ∧
  (∀ (s : State) (v : Byte),
    (s.setR8 .al v).r16 .ax = (s.r16 .ax &&& 0xFF00) ||| v.setWidth 16 ∧
    (s.setR8 .ah v).r16 .ax = (s.r16 .ax &&& 0x00FF) ||| (v.setWidth 16 <<< 8) ∧
    (s.setR8 .bl v).r16 .bx = (s.r16 .bx &&& 0xFF00) ||| v.setWidth 16 ∧
    (s.setR8 .bh v).r16 .bx = (s.r16 .bx &&& 0x00FF) ||| (v.setWidth 16 <<< 8) ∧
    (s.setR8 .cl v).r16 .cx = (s.r16 .cx &&& 0xFF00) ||| v.setWidth 16 ∧
    (s.setR8 .ch v).r16 .cx = (s.r16 .cx &&& 0x00FF) ||| (v.setWidth 16 <<< 8) ∧
    (s.setR8 .dl v).r16 .dx = (s.r16 .dx &&& 0xFF00) ||| v.setWidth 16 ∧
    (s.setR8 .dh v).r16 .dx = (s.r16 .dx &&& 0x00FF) ||| (v.setWidth 16 <<< 8)) ∧
  (∀ (s : State) (r q : Reg8) (v : Byte), (s.setR8 r v).r8 q = if q = r then v else s.r8 q) ∧
  (∀ (s : State) (r : Reg8) (q : Reg16) (v : Byte), q ≠ parentReg r → (s.setR8 r v).r16 q = s.r16 q) ∧
  (∀ (s : State) (r : Reg8) (v : Word),
    ((s.setR16 (parentReg r) v).r8 r).toNat = if isHighHalf r then v.toNat / 256 else v.toNat % 256)

/-- The bus. Where RAM stands, a byte written is what memory holds, and no other byte changes; ROM and device
addresses keep what they have. A read answers the byte memory holds; where it holds none (nothing put one there, or a
device stands there) it answers the host's next answer, which is taken off the queue, else a free value. A read
changes no memory, and each access is one call, a word's too: its low byte is at the address and its high byte at the
next physical address, modulo 2^20 (20_memory.md, bus interface, byte order and mixed widths). The word that wraps at
the top is the spec's decision D17, the answers its D32 (log 10); the map of kinds, the queue and the record of the
calls are the model's (logs 3, 5). -/
def Obligations.MemoryReadAfterWrite : Prop :=
  (∀ (s : State) (a b : PAddr) (v : Byte),
    (s.writeByte a v).memByte b = if b = a ∧ s.kindAt a = .ram then some v else s.memByte b) ∧
  (∀ (s : State) (a b : PAddr) (v : Word),
    (s.writeWord a v).memByte b =
      if b = a ∧ s.kindAt a = .ram then some (BitVec.ofNat 8 v.toNat)
      else if b = a + 1 ∧ s.kindAt (a + 1) = .ram then some (BitVec.ofNat 8 (v.toNat / 256))
      else s.memByte b) ∧
  (∀ (s : State) (a : PAddr) (v : Byte), s.memByte a = some v → s.readByte a = v ∧
    (s.afterReadByte a).bus = { s.bus with calls := .readByte a v :: s.bus.calls }) ∧
  (∀ (s : State) (a : PAddr) (v : Byte) (vs : List Byte), s.memByte a = none → s.bus.memIn = v :: vs →
    s.readByte a = v ∧
    (s.afterReadByte a).bus = { s.bus with memIn := vs, calls := .readByte a v :: s.bus.calls }) ∧
  (∀ (s : State) (a : PAddr), s.memByte a = none → s.bus.memIn = [] →
    s.readByte a = Config.freeMemByte s.bus.draws ∧
    (s.afterReadByte a).bus = { s.bus with
      draws := s.bus.draws + 1, calls := .readByte a (Config.freeMemByte s.bus.draws) :: s.bus.calls }) ∧
  (∀ (s : State) (a : PAddr), s.kindAt a = .device → s.memByte a = none) ∧
  (∀ (s : State) (a : PAddr),
    (s.readWord a).toNat = (s.readByte a).toNat + 256 * ((s.afterReadByte a).readByte (a + 1)).toNat ∧
    (s.afterReadWord a).bus = { ((s.afterReadByte a).afterReadByte (a + 1)).bus with
      calls := .readWord a (s.readWord a) :: s.bus.calls }) ∧
  (∀ (s : State) (a : PAddr) (lo hi : Byte), s.RamWord a →
    (((s.writeByte a lo).writeByte (a + 1) hi).readWord a).toNat = lo.toNat + 256 * hi.toNat) ∧
  (∀ (s : State) (a : PAddr) (v : Word), s.RamWord a → (s.writeWord a v).readWord a = v) ∧
  (∀ (s : State) (a : PAddr) (v : Byte) (w : Word),
    (s.writeByte a v).bus.calls = .writeByte a v :: s.bus.calls ∧
    (s.writeWord a w).bus.calls = .writeWord a w :: s.bus.calls) ∧
  (∀ s : State, (s.readWord 0xFFFFF).toNat
    = (s.readByte 0xFFFFF).toNat + 256 * ((s.afterReadByte 0xFFFFF).readByte 0).toNat)

/-- The effective address of every ModRM memory form, modulo 2^16, and the segment it is read through: the
override's, else SS for a BP-based form, else DS (30_encoding.md, addressing decoder; 20_memory.md,
segments). What an override replaces is the spec's decision D20 (log 10). -/
def Obligations.EffectiveAddress : Prop :=
  (∀ (s : State) (b : BaseIdx) (d : Byte) (e : Word),
    let base : Nat := match b with
      | .bxSi => (s.r16 .bx).toNat + (s.r16 .si).toNat
      | .bxDi => (s.r16 .bx).toNat + (s.r16 .di).toNat
      | .bpSi => (s.r16 .bp).toNat + (s.r16 .si).toNat
      | .bpDi => (s.r16 .bp).toNat + (s.r16 .di).toNat
      | .si => (s.r16 .si).toNat
      | .di => (s.r16 .di).toNat
      | .bp => (s.r16 .bp).toNat
      | .bx => (s.r16 .bx).toNat
    (s.ea (.base b)).toNat = base % 2 ^ 16 ∧
    ((s.ea (.disp8 b d)).toNat : Int) = ((base : Int) + d.toInt) % 2 ^ 16 ∧
    (s.ea (.disp16 b e)).toNat = (base + e.toNat) % 2 ^ 16 ∧
    s.ea (.direct e) = e) ∧
  (∀ (s : State) (p : MemOp) (off : Word),
    (s.decodedMem p).dataAddr off = phys (match s.segOverride, p with
      | some g, _ => s.sreg g
      | none, .base .bpSi | none, .base .bpDi | none, .base .bp => s.sreg .ss
      | none, .disp8 .bpSi _ | none, .disp8 .bpDi _ | none, .disp8 .bp _ => s.sreg .ss
      | none, .disp16 .bpSi _ | none, .disp16 .bpDi _ | none, .disp16 .bp _ => s.sreg .ss
      | none, _ => s.sreg .ds) off)

/-- R41: the packed write sets the nine flags from their bits and ignores the reserved bits; POPF and IRET
write the flags so, from the word each pops for them. -/
def Obligations.PackedWrite : Prop :=
  (∀ v : Word,
    let f := flagsOfPacked v
    f.cf = v.getLsbD 0 ∧ f.pf = v.getLsbD 2 ∧ f.af = v.getLsbD 4 ∧ f.zf = v.getLsbD 6 ∧ f.sf = v.getLsbD 7 ∧
    f.tf = v.getLsbD 8 ∧ f.ief = v.getLsbD 9 ∧ f.df = v.getLsbD 10 ∧ f.ovf = v.getLsbD 11) ∧
  (∀ v u : Word, (v ^^^ u) &&& 0x0FD5 = 0 → flagsOfPacked v = flagsOfPacked u) ∧
  (∀ s : State, ∃ t, exec .popf s = .next t ∧
    t.flags = flagsOfPacked (s.readWord (phys (s.sreg .ss) (s.r16 .sp)))) ∧
  (∀ s : State,
    let u := (s.afterReadWord (phys (s.sreg .ss) (s.r16 .sp))).afterReadWord (phys (s.sreg .ss) (s.r16 .sp + 2))
    ∃ t, exec .iret s = .next t ∧ t.flags = flagsOfPacked (u.readWord (phys (s.sreg .ss) (s.r16 .sp + 4))))

/-- The packed value read: each flag at its bit, the parameter's forced ones on; written and read back it
gives the same flags when no flag bit is forced, and a word read through it keeps its nine flag bits
(10_state.md, flags; the default 0xF002 is the spec's decision, log 7). -/
def Obligations.PackedRead : Prop :=
  (∀ (f : Flags) (forced : Word), forced &&& 0x0FD5 = 0 → flagsOfPacked (f.pack forced) = f) ∧
  (∀ v forced : Word, (flagsOfPacked v).pack forced = forced ||| (v &&& 0x0FD5)) ∧
  (∀ f : Flags, f.pack 0xF002 &&& 0xF02A = 0xF002)

/-! ## The arithmetic and logic cores -/

/-- The addition core at 8 and 16 bits, against arithmetic on unbounded numbers. AF (P_AF_MODE = intel: the carry out
of bit 3; keep: unchanged) is the spec's decision D12 (logs 7, 10). -/
def Obligations.AdditionCore : Prop :=
  ∀ (w : Nat) (a b : BitVec w) (cin : Bool) (mode : AfMode) (f : Flags), w = 8 ∨ w = 16 →
    let raw : Nat := a.toNat + b.toNat + cin.toNat
    let r := addResult a b cin
    let g := addFlags mode a b cin f
    r.toNat = raw % 2 ^ w ∧
    g.zf = decide (raw % 2 ^ w = 0) ∧
    g.sf = decide (raw % 2 ^ w ≥ 2 ^ (w - 1)) ∧
    g.pf = decide (((List.range 8).countP raw.testBit) % 2 = 0) ∧
    g.cf = decide (raw > 2 ^ w - 1) ∧
    g.ovf = (decide (a.msb = b.msb) && decide (r.msb ≠ a.msb)) ∧
    g.af = (if mode = .intel then ((a.toNat ^^^ b.toNat ^^^ raw) &&& 0x10) != 0 else f.af) ∧
    g.tf = f.tf ∧ g.ief = f.ief ∧ g.df = f.df

/-- The subtraction core at 8 and 16 bits, against arithmetic on unbounded numbers. The exact borrow in CF is the
spec's decision D13, AF its D12 (P_AF_MODE = intel: bit 4 of `a ^ b ^ raw`, `raw` taken modulo 2^w as its two's
complement; keep: unchanged) (logs 7, 10). -/
def Obligations.SubtractionCore : Prop :=
  ∀ (w : Nat) (a b : BitVec w) (cin : Bool) (mode : AfMode) (f : Flags), w = 8 ∨ w = 16 →
    let raw : Int := (a.toNat : Int) - b.toNat - cin.toNat
    let r := subResult a b cin
    let g := subFlags mode a b cin f
    (r.toNat : Int) = raw % 2 ^ w ∧
    g.zf = decide (raw % 2 ^ w = 0) ∧
    g.sf = decide (raw % 2 ^ w ≥ 2 ^ (w - 1)) ∧
    g.pf = decide (((List.range 8).countP (raw % 2 ^ w).toNat.testBit) % 2 = 0) ∧
    g.cf = decide (raw < 0) ∧
    g.ovf = (decide (a.msb ≠ b.msb) && decide (r.msb = b.msb)) ∧
    g.af = (if mode = .intel then ((a.toNat ^^^ b.toNat ^^^ (raw % 2 ^ w).toNat) &&& 0x10) != 0 else f.af) ∧
    g.tf = f.tf ∧ g.ief = f.ief ∧ g.df = f.df

/-- OF is the signed overflow and AF (P_AF_MODE = intel) the carry or borrow out of bit 3, carry-in
included, for additions and subtractions of 8 and 16 bits (10_state.md, flags; 41_arith_logic.md, cores). AF
and the borrow are the spec's decisions D12 and D13 (logs 7, 10). -/
def Obligations.OverflowAndAdjust : Prop :=
  ∀ (w : Nat) (a b : BitVec w) (cin : Bool) (f : Flags), w = 8 ∨ w = 16 →
    ((addFlags .intel a b cin f).ovf = true ↔
      a.toInt + b.toInt + cin.toNat < -(2 ^ (w - 1)) ∨ a.toInt + b.toInt + cin.toNat ≥ 2 ^ (w - 1)) ∧
    ((subFlags .intel a b cin f).ovf = true ↔
      a.toInt - b.toInt - cin.toNat < -(2 ^ (w - 1)) ∨ a.toInt - b.toInt - cin.toNat ≥ 2 ^ (w - 1)) ∧
    ((addFlags .intel a b cin f).af = true ↔ a.toNat % 16 + b.toNat % 16 + cin.toNat ≥ 16) ∧
    ((subFlags .intel a b cin f).af = true ↔ a.toNat % 16 < b.toNat % 16 + cin.toNat)

/-- The logic core clears CF and OF, sets ZF, SF and PF from the result and keeps AF; the six forms of TEST read
their operand once, set the flags of the conjunction and write nothing back. The forms of an r/m
operand and an immediate fetch the immediate, a call for each byte, after the operand is read. That AF is kept is
derived by the spec (41_arith_logic.md, logic core); the order of the accesses is its decision D37 (log 10). -/
def Obligations.LogicAndTest : Prop :=
  (∀ (w : Nat) (r : BitVec w) (f : Flags), w = 8 ∨ w = 16 →
    logicFlags r f = { f with
      cf := false, ovf := false, zf := decide (r.toNat = 0), sf := decide (r.toNat ≥ 2 ^ (w - 1)),
      pf := decide (((List.range 8).countP r.toNat.testBit) % 2 = 0) }) ∧
  (∀ (m : Rm Reg8) (r : Reg8) (i : Byte) (s : State),
    exec (.testEbGb m r) s
      = .next ((s.loaded8 m).setFlags (logicFlags (s.rmByte m &&& s.r8 r) s.flags)) ∧
    s.Calls (s.loaded8 m) (s.rmReads8 m) ∧
    exec (.testEbIb m i) s
      = .next ((s.loaded8 m).afterImm8.setFlags (logicFlags (s.rmByte m &&& i) s.flags)) ∧
    s.Calls (s.loaded8 m).afterImm8
      (.readByte (phys (s.sreg .cs) (s.ip - 1)) (s.loaded8 m).imm8 :: s.rmReads8 m) ∧
    exec (.testAlIb i) s = .next (s.setFlags (logicFlags (s.r8 .al &&& i) s.flags))) ∧
  (∀ (m : Rm Reg16) (r : Reg16) (i : Word) (s : State),
    exec (.testEvGv m r) s
      = .next ((s.loaded16 m).setFlags (logicFlags (s.rmWord m &&& s.r16 r) s.flags)) ∧
    s.Calls (s.loaded16 m) (s.rmReads16 m) ∧
    exec (.testEvIv m i) s
      = .next ((s.loaded16 m).afterImm16.setFlags (logicFlags (s.rmWord m &&& i) s.flags)) ∧
    (∃ lo hi : Byte, (s.loaded16 m).imm16 = leWord lo hi ∧
      s.Calls (s.loaded16 m).afterImm16
        (.readByte (phys (s.sreg .cs) (s.ip - 1)) hi :: .readByte (phys (s.sreg .cs) (s.ip - 2)) lo
          :: s.rmReads16 m)) ∧
    exec (.testAxIv i) s = .next (s.setFlags (logicFlags (s.r16 .ax &&& i) s.flags)))

/-- The four byte forms of ADD, OR, ADC, SBB, AND, SUB, XOR and CMP: the destination afterwards holds the
operation's result (CMP writes nothing), the flags are the operation's, and a memory operand is read once and, but for
CMP, then written once. The result and flags of each operation are those of the addition, subtraction or logic core,
with the carry in for ADC and SBB. CF after a borrow and AF are the spec's decisions D13 and D12 (logs 7, 10). -/
def Obligations.AluByteForms : Prop :=
  (∀ (op : AluOp) (m : Rm Reg8) (r : Reg8) (i : Byte) (s : State),
    (∃ t, exec (op.instrEbGb m r) s = .next t ∧
      t.flags = op.flags s.params.afMode (s.rmByte m) (s.r8 r) s.flags ∧
      (op ≠ .cmp → s.RmHolds8 t m (op.result (s.rmByte m) (s.r8 r) s.flags.cf)) ∧
      s.Calls t ((if op = .cmp then [] else s.rmWrites8 m (op.result (s.rmByte m) (s.r8 r) s.flags.cf))
        ++ s.rmReads8 m)) ∧
    (∃ t, exec (op.instrGbEb r m) s = .next t ∧
      t.flags = op.flags s.params.afMode (s.r8 r) (s.rmByte m) s.flags ∧
      t.r8 r = op.stores (s.r8 r) (s.rmByte m) s.flags.cf ∧ s.Calls t (s.rmReads8 m)) ∧
    (∃ t, exec (op.instrAlIb i) s = .next t ∧
      t.flags = op.flags s.params.afMode (s.r8 .al) i s.flags ∧
      t.r8 .al = op.stores (s.r8 .al) i s.flags.cf ∧ t.bus = s.bus) ∧
    (∃ t, exec (op.instrEbIb m i) s = .next t ∧
      t.flags = op.flags s.params.afMode (s.rmByte m) i s.flags ∧
      (op ≠ .cmp → s.RmHolds8 t m (op.result (s.rmByte m) i s.flags.cf)) ∧
      s.Calls t ((if op = .cmp then [] else s.rmWrites8 m (op.result (s.rmByte m) i s.flags.cf))
        ++ s.rmReads8 m))) ∧
  (∀ (mode : AfMode) (a b : Byte) (cf : Bool) (f : Flags),
    (∀ op : AluOp, op.result a b cf = match op with
      | .add => addResult a b false
      | .or => a ||| b
      | .adc => addResult a b cf
      | .sbb => subResult a b cf
      | .and => a &&& b
      | .sub | .cmp => subResult a b false
      | .xor => a ^^^ b) ∧
    (∀ op : AluOp, op.flags mode a b f = match op with
      | .add => addFlags mode a b false f
      | .or => logicFlags (a ||| b) f
      | .adc => addFlags mode a b f.cf f
      | .sbb => subFlags mode a b f.cf f
      | .and => logicFlags (a &&& b) f
      | .sub | .cmp => subFlags mode a b false f
      | .xor => logicFlags (a ^^^ b) f))

/-- The five word forms of ADD, OR, ADC, SBB, AND, SUB, XOR and CMP, as the byte forms; the immediate byte of 0x83 is
sign-extended. CF after a borrow and AF are the spec's decisions D13 and D12 (logs 7, 10). -/
def Obligations.AluWordForms : Prop :=
  (∀ (op : AluOp) (m : Rm Reg16) (r : Reg16) (i : Word) (b : Byte) (s : State),
    (∃ t, exec (op.instrEvGv m r) s = .next t ∧
      t.flags = op.flags s.params.afMode (s.rmWord m) (s.r16 r) s.flags ∧
      (op ≠ .cmp → s.RmHolds16 t m (op.result (s.rmWord m) (s.r16 r) s.flags.cf)) ∧
      s.Calls t ((if op = .cmp then [] else s.rmWrites16 m (op.result (s.rmWord m) (s.r16 r) s.flags.cf))
        ++ s.rmReads16 m)) ∧
    (∃ t, exec (op.instrGvEv r m) s = .next t ∧
      t.flags = op.flags s.params.afMode (s.r16 r) (s.rmWord m) s.flags ∧
      t.r16 r = op.stores (s.r16 r) (s.rmWord m) s.flags.cf ∧ s.Calls t (s.rmReads16 m)) ∧
    (∃ t, exec (op.instrAxIv i) s = .next t ∧
      t.flags = op.flags s.params.afMode (s.r16 .ax) i s.flags ∧
      t.r16 .ax = op.stores (s.r16 .ax) i s.flags.cf ∧ t.bus = s.bus) ∧
    (∃ t, exec (op.instrEvIv m i) s = .next t ∧
      t.flags = op.flags s.params.afMode (s.rmWord m) i s.flags ∧
      (op ≠ .cmp → s.RmHolds16 t m (op.result (s.rmWord m) i s.flags.cf)) ∧
      s.Calls t ((if op = .cmp then [] else s.rmWrites16 m (op.result (s.rmWord m) i s.flags.cf))
        ++ s.rmReads16 m)) ∧
    (∃ t, exec (op.instrEvSb m b) s = .next t ∧
      t.flags = op.flags s.params.afMode (s.rmWord m) (BitVec.ofInt 16 b.toInt) s.flags ∧
      (op ≠ .cmp → s.RmHolds16 t m (op.result (s.rmWord m) (BitVec.ofInt 16 b.toInt) s.flags.cf)) ∧
      s.Calls t ((if op = .cmp then []
        else s.rmWrites16 m (op.result (s.rmWord m) (BitVec.ofInt 16 b.toInt) s.flags.cf)) ++ s.rmReads16 m))) ∧
  (∀ (mode : AfMode) (a b : Word) (cf : Bool) (f : Flags),
    (∀ op : AluOp, op.result a b cf = match op with
      | .add => addResult a b false
      | .or => a ||| b
      | .adc => addResult a b cf
      | .sbb => subResult a b cf
      | .and => a &&& b
      | .sub | .cmp => subResult a b false
      | .xor => a ^^^ b) ∧
    (∀ op : AluOp, op.flags mode a b f = match op with
      | .add => addFlags mode a b false f
      | .or => logicFlags (a ||| b) f
      | .adc => addFlags mode a b f.cf f
      | .sbb => subFlags mode a b f.cf f
      | .and => logicFlags (a &&& b) f
      | .sub | .cmp => subFlags mode a b false f
      | .xor => logicFlags (a ^^^ b) f))

/-- NOT complements its operand and, as P_NOT_SETS_FLAGS has it, sets the logic flags or none. NEG subtracts
it from 0: CF is set unless it is 0, OF exactly for the most negative value. A memory operand is read once and written
once. The parameter and NEG's flags are the spec's decisions D36, D13, D12 (logs 7, 10). -/
def Obligations.NotAndNeg : Prop :=
  (∀ (m : Rm Reg8) (s : State),
    (∃ t r, exec (.notEb m) s = .next t ∧ r.toNat = 255 - (s.rmByte m).toNat ∧ s.RmHolds8 t m r ∧
      s.Calls t (s.rmWrites8 m r ++ s.rmReads8 m) ∧
      t.flags = if s.params.notSetsFlags then logicFlags r s.flags else s.flags) ∧
    (∃ t r, exec (.negEb m) s = .next t ∧ r.toNat = (256 - (s.rmByte m).toNat) % 256 ∧ s.RmHolds8 t m r ∧
      s.Calls t (s.rmWrites8 m r ++ s.rmReads8 m) ∧
      t.flags.cf = decide (s.rmByte m ≠ 0) ∧ t.flags.ovf = decide (s.rmByte m = 0x80) ∧
      t.flags.zf = decide (s.rmByte m = 0) ∧ t.flags.sf = r.msb ∧ t.flags.pf = evenParity r ∧
      t.flags.af = (if s.params.afMode = .intel then decide ((s.rmByte m).toNat % 16 ≠ 0) else s.flags.af))) ∧
  (∀ (m : Rm Reg16) (s : State),
    (∃ t r, exec (.notEv m) s = .next t ∧ r.toNat = 65535 - (s.rmWord m).toNat ∧ s.RmHolds16 t m r ∧
      s.Calls t (s.rmWrites16 m r ++ s.rmReads16 m) ∧
      t.flags = if s.params.notSetsFlags then logicFlags r s.flags else s.flags) ∧
    (∃ t r, exec (.negEv m) s = .next t ∧ r.toNat = (65536 - (s.rmWord m).toNat) % 65536 ∧ s.RmHolds16 t m r ∧
      s.Calls t (s.rmWrites16 m r ++ s.rmReads16 m) ∧
      t.flags.cf = decide (s.rmWord m ≠ 0) ∧ t.flags.ovf = decide (s.rmWord m = 0x8000) ∧
      t.flags.zf = decide (s.rmWord m = 0) ∧ t.flags.sf = r.msb ∧ t.flags.pf = evenParity r ∧
      t.flags.af = (if s.params.afMode = .intel then decide ((s.rmWord m).toNat % 16 ≠ 0) else s.flags.af)))

/-- INC and DEC, r/m and register forms: plus or minus 1 modulo the width; OF, SF, ZF, PF and AF from the
result, CF kept; a memory operand is read once and written once. AF is the spec's decision D12 (logs 7, 10). -/
def Obligations.IncAndDec : Prop :=
  (∀ (m : Rm Reg8) (s : State),
    (∃ t r, exec (.incEb m) s = .next t ∧ s.IncLeaves (s.rmByte m) r t ∧ s.RmHolds8 t m r ∧
      s.Calls t (s.rmWrites8 m r ++ s.rmReads8 m)) ∧
    (∃ t r, exec (.decEb m) s = .next t ∧ s.DecLeaves (s.rmByte m) r t ∧ s.RmHolds8 t m r ∧
      s.Calls t (s.rmWrites8 m r ++ s.rmReads8 m))) ∧
  (∀ (m : Rm Reg16) (s : State),
    (∃ t r, exec (.incEv m) s = .next t ∧ s.IncLeaves (s.rmWord m) r t ∧ s.RmHolds16 t m r ∧
      s.Calls t (s.rmWrites16 m r ++ s.rmReads16 m)) ∧
    (∃ t r, exec (.decEv m) s = .next t ∧ s.DecLeaves (s.rmWord m) r t ∧ s.RmHolds16 t m r ∧
      s.Calls t (s.rmWrites16 m r ++ s.rmReads16 m))) ∧
  (∀ (r : Reg16) (s : State),
    (∃ t, exec (.incR16 r) s = .next t ∧ s.IncLeaves (s.r16 r) (t.r16 r) t ∧ t.bus = s.bus) ∧
    (∃ t, exec (.decR16 r) s = .next t ∧ s.DecLeaves (s.r16 r) (t.r16 r) t ∧ t.bus = s.bus))

/-! ## Data movement -/

/-- MOV in its fourteen forms: the destination afterwards holds the source's value from before, and the
flags are kept; a memory source is read once, a memory destination written once and not read. The accumulator forms
address through the override's segment, else DS: that segment is the spec's decision D20 (log 10). -/
def Obligations.MovForms : Prop :=
  (∀ (m : Rm Reg8) (r : Reg8) (i : Byte) (s : State),
    (∃ t, exec (.movEbGb m r) s = .next t ∧ s.RmHolds8 t m (s.r8 r) ∧ t.flags = s.flags ∧
      s.Calls t (s.rmWrites8 m (s.r8 r))) ∧
    (∃ t, exec (.movGbEb r m) s = .next t ∧ t.r8 r = s.rmByte m ∧ t.flags = s.flags ∧
      s.Calls t (s.rmReads8 m)) ∧
    (∃ t, exec (.movEbIb m i) s = .next t ∧ s.RmHolds8 t m i ∧ t.flags = s.flags ∧
      s.Calls t (s.rmWrites8 m i)) ∧
    (∃ t, exec (.movR8Ib r i) s = .next t ∧ t.r8 r = i ∧ t.flags = s.flags ∧ t.bus = s.bus)) ∧
  (∀ (m : Rm Reg16) (r : Reg16) (g : SegReg) (i : Word) (s : State),
    (∃ t, exec (.movEvGv m r) s = .next t ∧ s.RmHolds16 t m (s.r16 r) ∧ t.flags = s.flags ∧
      s.Calls t (s.rmWrites16 m (s.r16 r))) ∧
    (∃ t, exec (.movGvEv r m) s = .next t ∧ t.r16 r = s.rmWord m ∧ t.flags = s.flags ∧
      s.Calls t (s.rmReads16 m)) ∧
    (∃ t, exec (.movEvIv m i) s = .next t ∧ s.RmHolds16 t m i ∧ t.flags = s.flags ∧
      s.Calls t (s.rmWrites16 m i)) ∧
    (∃ t, exec (.movR16Iv r i) s = .next t ∧ t.r16 r = i ∧ t.flags = s.flags ∧ t.bus = s.bus) ∧
    (∃ t, exec (.movSwEw g m) s = .next t ∧ t.sreg g = s.rmWord m ∧ t.flags = s.flags ∧
      s.Calls t (s.rmReads16 m)) ∧
    (∃ t, exec (.movEwSw m g) s = .next t ∧ s.RmHolds16 t m (s.sreg g) ∧ t.flags = s.flags ∧
      s.Calls t (s.rmWrites16 m (s.sreg g)))) ∧
  (∀ (a : Word) (s : State),
    let pa := phys (match s.segOverride with
      | some g => s.sreg g
      | none => s.sreg .ds) a
    (∃ t, exec (.movAlOb a) s = .next t ∧ t.r8 .al = s.readByte pa ∧ t.flags = s.flags ∧
      s.Calls t [.readByte pa (s.readByte pa)]) ∧
    (∃ t, exec (.movAxOv a) s = .next t ∧ t.r16 .ax = s.readWord pa ∧ t.flags = s.flags ∧
      s.Calls t [.readWord pa (s.readWord pa)]) ∧
    (∃ t, exec (.movObAl a) s = .next t ∧ t.HoldsByte pa (s.r8 .al) ∧ t.flags = s.flags ∧
      s.Calls t [.writeByte pa (s.r8 .al)]) ∧
    (∃ t, exec (.movOvAx a) s = .next t ∧ t.HoldsWord pa (s.r16 .ax) ∧ t.flags = s.flags ∧
      s.Calls t [.writeWord pa (s.r16 .ax)]))

/-- XCHG: the two operands afterwards hold each other's value from before; the address of a memory operand
is the one before the exchange, read once and then written once. The register form is the spec's from general
knowledge. -/
def Obligations.XchgForms : Prop :=
  (∀ (m : Rm Reg8) (r : Reg8) (s : State),
    ∃ t, exec (.xchgEbGb m r) s = .next t ∧ s.RmHolds8 t m (s.r8 r) ∧
      t.r8 r = s.rmByte m ∧ t.flags = s.flags ∧ s.Calls t (s.rmWrites8 m (s.r8 r) ++ s.rmReads8 m)) ∧
  (∀ (m : Rm Reg16) (r : Reg16) (s : State),
    (∃ t, exec (.xchgEvGv m r) s = .next t ∧ s.RmHolds16 t m (s.r16 r) ∧
      t.r16 r = s.rmWord m ∧ t.flags = s.flags ∧ s.Calls t (s.rmWrites16 m (s.r16 r) ++ s.rmReads16 m)) ∧
    (∃ t, exec (.xchgAxR16 r) s = .next t ∧ t.r16 .ax = s.r16 r ∧ t.r16 r = s.r16 .ax ∧ t.flags = s.flags ∧
      t.bus = s.bus))

/-- LEA loads the effective address without an access; LDS and LES load the offset word and then the segment word
at EA + 2 (modulo 2^16), each read once. Their encodings are the spec's decision D24 (log 10). -/
def Obligations.LeaLdsLes : Prop :=
  ∀ (r : Reg16) (p : MemOp) (s : State),
    let pa := s.memAddr p
    let pb := (s.decodedMem p).dataAddr (s.ea p + 2)
    let off := s.readWord pa
    let seg := (s.afterReadWord pa).readWord pb
    (∃ t, exec (.lea r p) s = .next t ∧ t.r16 r = s.ea p ∧ t.flags = s.flags ∧ t.bus = s.bus) ∧
    (∃ t, exec (.lds r p) s = .next t ∧ t.r16 r = off ∧ t.sreg .ds = seg ∧ t.flags = s.flags ∧
      s.Calls t [.readWord pb seg, .readWord pa off]) ∧
    (∃ t, exec (.les r p) s = .next t ∧ t.r16 r = off ∧ t.sreg .es = seg ∧ t.flags = s.flags ∧
      s.Calls t [.readWord pb seg, .readWord pa off])

/-- XLAT, LAHF, SAHF, CBW and CWD. The spec gives them from general knowledge. -/
def Obligations.AccumulatorMoves : Prop :=
  ∀ s : State,
    (∃ t, exec .xlat s = .next t ∧ t.flags = s.flags ∧
      ∃ pa, pa = phys (match s.segOverride with
        | some g => s.sreg g
        | none => s.sreg .ds) (BitVec.ofNat 16 ((s.r16 .bx).toNat + (s.r8 .al).toNat)) ∧
      t.r8 .al = s.readByte pa ∧ s.Calls t [.readByte pa (s.readByte pa)]) ∧
    (∃ t, exec .lahf s = .next t ∧ t.flags = s.flags ∧ (t.r8 .ah).toNat = s.packed.toNat % 256) ∧
    (∃ t, exec .sahf s = .next t ∧ t.flags = { s.flags with
      sf := (s.r8 .ah).getLsbD 7, zf := (s.r8 .ah).getLsbD 6, af := (s.r8 .ah).getLsbD 4,
      pf := (s.r8 .ah).getLsbD 2, cf := (s.r8 .ah).getLsbD 0 }) ∧
    (∃ t, exec .cbw s = .next t ∧ t.flags = s.flags ∧ (t.r16 .ax).toInt = (s.r8 .al).toInt) ∧
    (∃ t, exec .cwd s = .next t ∧ t.flags = s.flags ∧ t.r16 .ax = s.r16 .ax ∧
      t.r16 .dx = if (s.r16 .ax).toNat ≥ 0x8000 then 0xFFFF else 0)

/-! ## Multiply, divide, decimal adjust -/

/-- MUL and IMUL: the full product, unsigned or signed, in AX or DX:AX; CF and OF both tell that it does not
fit the low half; a memory operand is read once. SF, ZF, AF and PF are left undefined (free values, log 6). -/
def Obligations.MultiplyProducts : Prop :=
  (∀ (m : Rm Reg8) (s : State),
    (∃ t, exec (.mulEb m) s = .next t ∧ s.Calls t (s.rmReads8 m) ∧
      (t.r16 .ax).toNat = (s.r8 .al).toNat * (s.rmByte m).toNat ∧
      t.flags.cf = decide ((s.r8 .al).toNat * (s.rmByte m).toNat > 0xFF) ∧ t.flags.ovf = t.flags.cf) ∧
    (∃ t, exec (.imulEb m) s = .next t ∧ s.Calls t (s.rmReads8 m) ∧
      (t.r16 .ax).toInt = (s.r8 .al).toInt * (s.rmByte m).toInt ∧
      t.flags.cf = decide ((s.r8 .al).toInt * (s.rmByte m).toInt < -128 ∨
        (s.r8 .al).toInt * (s.rmByte m).toInt > 127) ∧ t.flags.ovf = t.flags.cf)) ∧
  (∀ (m : Rm Reg16) (s : State),
    (∃ t, exec (.mulEv m) s = .next t ∧ s.Calls t (s.rmReads16 m) ∧
      (t.r16 .dx).toNat * 0x10000 + (t.r16 .ax).toNat = (s.r16 .ax).toNat * (s.rmWord m).toNat ∧
      t.flags.cf = decide ((s.r16 .ax).toNat * (s.rmWord m).toNat > 0xFFFF) ∧ t.flags.ovf = t.flags.cf) ∧
    (∃ t, exec (.imulEv m) s = .next t ∧ s.Calls t (s.rmReads16 m) ∧
      (t.r16 .dx).toInt * 0x10000 + (t.r16 .ax).toNat = (s.r16 .ax).toInt * (s.rmWord m).toInt ∧
      t.flags.cf = decide ((s.r16 .ax).toInt * (s.rmWord m).toInt < -32768 ∨
        (s.r16 .ax).toInt * (s.rmWord m).toInt > 32767) ∧ t.flags.ovf = t.flags.cf))

/-- DIV and IDIV when the divisor is not 0 and the quotient fits: dividend = divisor * quotient + remainder, the
remainder smaller than the divisor and, signed, with the dividend's sign. The least quotient IDIV stores is
P_IDIV_ACCEPT_MIN's. A memory divisor is read once. The flags are left undefined (free values, log 6). The bounds of
IDIV are the spec's decision D15 (logs 7, 10). -/
def Obligations.DivideQuotients : Prop :=
  (∀ (m : Rm Reg8) (s : State),
    let n := (s.r16 .ax).toNat
    let d := (s.rmByte m).toNat
    d ≠ 0 → n / d ≤ 0xFF → ∃ t, exec (.divEb m) s = .next t ∧ s.Calls t (s.rmReads8 m) ∧
      n = d * (t.r8 .al).toNat + (t.r8 .ah).toNat ∧ (t.r8 .ah).toNat < d) ∧
  (∀ (m : Rm Reg16) (s : State),
    let n := (s.r16 .dx).toNat * 0x10000 + (s.r16 .ax).toNat
    let d := (s.rmWord m).toNat
    d ≠ 0 → n / d ≤ 0xFFFF → ∃ t, exec (.divEv m) s = .next t ∧ s.Calls t (s.rmReads16 m) ∧
      n = d * (t.r16 .ax).toNat + (t.r16 .dx).toNat ∧ (t.r16 .dx).toNat < d) ∧
  (∀ (m : Rm Reg8) (s : State),
    let n := (s.r16 .ax).toInt
    let d := (s.rmByte m).toInt
    d ≠ 0 → (if s.params.idivAcceptMin then -128 else -127) ≤ n.tdiv d → n.tdiv d ≤ 127 →
      ∃ t, exec (.idivEb m) s = .next t ∧ s.Calls t (s.rmReads8 m) ∧
      n = d * (t.r8 .al).toInt + (t.r8 .ah).toInt ∧ (t.r8 .ah).toInt.natAbs < d.natAbs ∧
      0 ≤ n * (t.r8 .ah).toInt) ∧
  (∀ (m : Rm Reg16) (s : State),
    let n := (s.r16 .dx).toInt * 0x10000 + (s.r16 .ax).toNat
    let d := (s.rmWord m).toInt
    d ≠ 0 → (if s.params.idivAcceptMin then -32768 else -32767) ≤ n.tdiv d → n.tdiv d ≤ 32767 →
      ∃ t, exec (.idivEv m) s = .next t ∧ s.Calls t (s.rmReads16 m) ∧
      n = d * (t.r16 .ax).toInt + (t.r16 .dx).toInt ∧ (t.r16 .dx).toInt.natAbs < d.natAbs ∧
      0 ≤ n * (t.r16 .dx).toInt)

/-- The divide error: DIV and IDIV by 0 or with a quotient that does not fit, and AAM with base 0, enter
vector 0 and do nothing else but decode and read the divisor (`loaded8`, `loaded16`: the decoder's `seg_override`
and one bus read of a memory operand). The saved IP and flags are the spec's
decisions D15 and D16 (logs 7, 10). -/
def Obligations.DivideErrorTaken : Prop :=
  (∀ (m : Rm Reg8) (s : State),
    ((s.rmByte m).toNat = 0 ∨ (s.r16 .ax).toNat / (s.rmByte m).toNat > 0xFF →
      exec (.divEb m) s = .next ((s.loaded8 m).serviceInterrupt 0)) ∧
    ((s.rmByte m).toInt = 0 ∨
      (s.r16 .ax).toInt.tdiv (s.rmByte m).toInt < (if s.params.idivAcceptMin then -128 else -127) ∨
      (s.r16 .ax).toInt.tdiv (s.rmByte m).toInt > 127 →
      exec (.idivEb m) s = .next ((s.loaded8 m).serviceInterrupt 0))) ∧
  (∀ (m : Rm Reg16) (s : State),
    ((s.rmWord m).toNat = 0 ∨
      ((s.r16 .dx).toNat * 0x10000 + (s.r16 .ax).toNat) / (s.rmWord m).toNat > 0xFFFF →
      exec (.divEv m) s = .next ((s.loaded16 m).serviceInterrupt 0)) ∧
    ((s.rmWord m).toInt = 0 ∨
      ((s.r16 .dx).toInt * 0x10000 + (s.r16 .ax).toNat).tdiv (s.rmWord m).toInt
        < (if s.params.idivAcceptMin then -32768 else -32767) ∨
      ((s.r16 .dx).toInt * 0x10000 + (s.r16 .ax).toNat).tdiv (s.rmWord m).toInt > 32767 →
      exec (.idivEv m) s = .next ((s.loaded16 m).serviceInterrupt 0))) ∧
  (∀ s : State, exec (.aam 0) s = .next (s.serviceInterrupt 0))

/-- DAA, DAS, AAA, AAS, AAD and AAM (base not 0), in the 8086 forms. The 8086 forms are the spec's decision
D31 (log 10). -/
def Obligations.DecimalAdjust : Prop :=
  ∀ s : State,
    let al := (s.r8 .al).toNat
    let ah := (s.r8 .ah).toNat
    let low := decide (al % 16 > 9) || s.flags.af
    let high := decide (al > 0x99) || s.flags.cf
    (∃ t, exec .daa s = .next t ∧
      (t.r8 .al).toNat = (al + (if low then 6 else 0) + (if high then 0x60 else 0)) % 256 ∧
      t.flags.af = low ∧ t.flags.cf = high ∧
      t.flags.zf = decide (t.r8 .al = 0) ∧ t.flags.sf = (t.r8 .al).msb ∧ t.flags.pf = evenParity (t.r8 .al)) ∧
    (∃ t, exec .das s = .next t ∧
      ((t.r8 .al).toNat : Int) = ((al : Int) - (if low then 6 else 0) - (if high then 0x60 else 0)) % 256 ∧
      t.flags.af = low ∧ t.flags.cf = (high || (low && (s.flags.cf || decide (al < 6)))) ∧
      t.flags.zf = decide (t.r8 .al = 0) ∧ t.flags.sf = (t.r8 .al).msb ∧ t.flags.pf = evenParity (t.r8 .al)) ∧
    (∃ t, exec .aaa s = .next t ∧
      (t.r8 .al).toNat = (al + (if low then 6 else 0)) % 16 ∧
      (t.r8 .ah).toNat = (ah + (if low then 1 else 0)) % 256 ∧ t.flags.af = low ∧ t.flags.cf = low) ∧
    (∃ t, exec .aas s = .next t ∧
      ((t.r8 .al).toNat : Int) = ((al : Int) - (if low then 6 else 0)) % 16 ∧
      ((t.r8 .ah).toNat : Int) = ((ah : Int) - (if low then 1 else 0)) % 256 ∧
      t.flags.af = low ∧ t.flags.cf = low) ∧
    (∀ b : Byte, ∃ t, exec (.aad b) s = .next t ∧
      (t.r8 .al).toNat = (al + ah * b.toNat) % 256 ∧ t.r8 .ah = 0 ∧
      t.flags.zf = decide (t.r8 .al = 0) ∧ t.flags.sf = (t.r8 .al).msb ∧ t.flags.pf = evenParity (t.r8 .al)) ∧
    (∀ b : Byte, b ≠ 0 → ∃ t, exec (.aam b) s = .next t ∧
      (t.r8 .ah).toNat = al / b.toNat ∧ (t.r8 .al).toNat = al % b.toNat ∧
      t.flags.zf = decide (t.r8 .al = 0) ∧ t.flags.sf = (t.r8 .al).msb ∧ t.flags.pf = evenParity (t.r8 .al))

/-- ADD AL,Ib then DAA adds two packed decimal numbers of two digits: AL is the decimal sum modulo 100 and
CF its hundreds, when P_AF_MODE is intel. DAA is the spec's decision D31, AF D12 (logs 7, 10). -/
def Obligations.DecimalAddition : Prop :=
  ∀ (s : State) (x y : Nat), x < 100 → y < 100 → s.params.afMode = .intel →
    (s.r8 .al).toNat = 16 * (x / 10) + x % 10 →
    ∃ t u, exec (.addAlIb (BitVec.ofNat 8 (16 * (y / 10) + y % 10))) s = .next t ∧ exec .daa t = .next u ∧
      (u.r8 .al).toNat = 16 * ((x + y) % 100 / 10) + (x + y) % 10 ∧ u.flags.cf = decide (x + y ≥ 100)

/-! ## Control transfer -/

/-- The sixteen conditional jumps: taken exactly when their condition holds, to IP plus the signed
displacement; nothing but IP changes. The base of the displacement is the spec's decision D46 (log 10). -/
def Obligations.ConditionalJumps : Prop :=
  ∀ (d : Byte) (s : State),
    let go := fun c : Bool => if c then s.setIp (BitVec.ofInt 16 (s.ip.toNat + d.toInt)) else s
    let f := s.flags
    exec (.jo d) s = .next (go f.ovf) ∧ exec (.jno d) s = .next (go (!f.ovf)) ∧
    exec (.jb d) s = .next (go f.cf) ∧ exec (.jae d) s = .next (go (!f.cf)) ∧
    exec (.je d) s = .next (go f.zf) ∧ exec (.jne d) s = .next (go (!f.zf)) ∧
    exec (.jbe d) s = .next (go (f.cf || f.zf)) ∧ exec (.ja d) s = .next (go (!f.cf && !f.zf)) ∧
    exec (.js d) s = .next (go f.sf) ∧ exec (.jns d) s = .next (go (!f.sf)) ∧
    exec (.jp d) s = .next (go f.pf) ∧ exec (.jnp d) s = .next (go (!f.pf)) ∧
    exec (.jl d) s = .next (go (f.sf != f.ovf)) ∧ exec (.jge d) s = .next (go (f.sf == f.ovf)) ∧
    exec (.jle d) s = .next (go (f.zf || (f.sf != f.ovf))) ∧
    exec (.jg d) s = .next (go (!f.zf && (f.sf == f.ovf)))

/-- The five jumps: IP, and CS for the far ones, are the target's and nothing else changes (an indirect one's
decoder may set `seg_override`, and the words of its operand are read once, the offset first). The base of a
displacement is the spec's decision D46 (log 10). -/
def Obligations.Jumps : Prop :=
  (∀ (d : Byte) (s : State),
    exec (.jmpShort d) s = .next (s.setIp (BitVec.ofInt 16 (s.ip.toNat + d.toInt)))) ∧
  (∀ (d : Word) (s : State),
    exec (.jmpNear d) s = .next (s.setIp (BitVec.ofInt 16 (s.ip.toNat + d.toInt)))) ∧
  (∀ (off sg : Word) (s : State), exec (.jmpFar off sg) s = .next ((s.setIp off).setSreg .cs sg)) ∧
  (∀ (m : Rm Reg16) (s : State), exec (.jmpEv m) s = .next ((s.loaded16 m).setIp (s.rmWord m)) ∧
    s.Calls (s.loaded16 m) (s.rmReads16 m)) ∧
  (∀ (p : MemOp) (s : State),
    let pa := s.memAddr p
    let pb := (s.decodedMem p).dataAddr (s.ea p + 2)
    let off := s.readWord pa
    let sg := (s.afterReadWord pa).readWord pb
    exec (.jmpMp p) s
      = .next ((((s.decodedMem p).afterReadWord pa).afterReadWord pb |>.setIp off).setSreg .cs sg) ∧
    s.Calls (((s.decodedMem p).afterReadWord pa).afterReadWord pb) [.readWord pb sg, .readWord pa off])

/-- The four calls: the return address is stored below SP (for a far call CS above IP), SP moves down, and
control goes to the target, which an indirect form reads before it pushes; the bus calls are those reads and
writes, in that order. The base of a displacement is the spec's decision D46 (log 10). -/
def Obligations.Calls : Prop :=
  (∀ (d : Word) (s : State), ∃ t, exec (.callNear d) s = .next t ∧
    t.ip = BitVec.ofInt 16 (s.ip.toNat + d.toInt) ∧ t.r16 .sp = s.r16 .sp - 2 ∧
    t.HoldsWord (phys (s.sreg .ss) (s.r16 .sp - 2)) s.ip ∧ t.sreg .cs = s.sreg .cs ∧
    s.Calls t [.writeWord (phys (s.sreg .ss) (s.r16 .sp - 2)) s.ip]) ∧
  (∀ (m : Rm Reg16) (s : State), ∃ t, exec (.callEv m) s = .next t ∧
    t.ip = s.rmWord m ∧ t.r16 .sp = s.r16 .sp - 2 ∧
    t.HoldsWord (phys (s.sreg .ss) (s.r16 .sp - 2)) s.ip ∧ t.sreg .cs = s.sreg .cs ∧
    s.Calls t (.writeWord (phys (s.sreg .ss) (s.r16 .sp - 2)) s.ip :: s.rmReads16 m)) ∧
  (∀ (off sg : Word) (s : State), ∃ t, exec (.callFar off sg) s = .next t ∧
    t.ip = off ∧ t.sreg .cs = sg ∧ t.r16 .sp = s.r16 .sp - 4 ∧
    t.HoldsWord (phys (s.sreg .ss) (s.r16 .sp - 2)) (s.sreg .cs) ∧
    t.HoldsWord (phys (s.sreg .ss) (s.r16 .sp - 4)) s.ip ∧
    s.Calls t [.writeWord (phys (s.sreg .ss) (s.r16 .sp - 4)) s.ip,
      .writeWord (phys (s.sreg .ss) (s.r16 .sp - 2)) (s.sreg .cs)]) ∧
  (∀ (p : MemOp) (s : State),
    let pa := s.memAddr p
    let pb := (s.decodedMem p).dataAddr (s.ea p + 2)
    ∃ t, exec (.callMp p) s = .next t ∧
    t.ip = s.readWord pa ∧ t.sreg .cs = (s.afterReadWord pa).readWord pb ∧ t.r16 .sp = s.r16 .sp - 4 ∧
    t.HoldsWord (phys (s.sreg .ss) (s.r16 .sp - 2)) (s.sreg .cs) ∧
    t.HoldsWord (phys (s.sreg .ss) (s.r16 .sp - 4)) s.ip ∧
    s.Calls t [.writeWord (phys (s.sreg .ss) (s.r16 .sp - 4)) s.ip,
      .writeWord (phys (s.sreg .ss) (s.r16 .sp - 2)) (s.sreg .cs),
      .readWord pb ((s.afterReadWord pa).readWord pb), .readWord pa (s.readWord pa)])

/-- The four returns: IP, and CS for the far ones, come from the stack, each word read once, SP moves up past them and
past the immediate. The moment of the adjustment is the spec's decision D48 (log 10). -/
def Obligations.Returns : Prop :=
  ∀ (n : Word) (s : State),
    let pa := phys (s.sreg .ss) (s.r16 .sp)
    let pb := phys (s.sreg .ss) (s.r16 .sp + 2)
    let w0 := s.readWord pa
    let w1 := (s.afterReadWord pa).readWord pb
    (∃ t, exec .ret s = .next t ∧ t.ip = w0 ∧ t.sreg .cs = s.sreg .cs ∧ t.r16 .sp = s.r16 .sp + 2 ∧
      s.Calls t [.readWord pa w0]) ∧
    (∃ t, exec (.retIw n) s = .next t ∧ t.ip = w0 ∧ t.sreg .cs = s.sreg .cs ∧ t.r16 .sp = s.r16 .sp + 2 + n ∧
      s.Calls t [.readWord pa w0]) ∧
    (∃ t, exec .retf s = .next t ∧ t.ip = w0 ∧ t.sreg .cs = w1 ∧ t.r16 .sp = s.r16 .sp + 4 ∧
      s.Calls t [.readWord pb w1, .readWord pa w0]) ∧
    (∃ t, exec (.retfIw n) s = .next t ∧ t.ip = w0 ∧ t.sreg .cs = w1 ∧ t.r16 .sp = s.r16 .sp + 4 + n ∧
      s.Calls t [.readWord pb w1, .readWord pa w0])

/-- A return reverses its call, wherever the RET stands, when the stack's bytes are RAM: IP, CS, SP and every register
are as they were at the instruction after the CALL. -/
def Obligations.CallThenReturn : Prop :=
  (∀ (d x : Word) (s : State), s.RamWord (phys (s.sreg .ss) (s.r16 .sp - 2)) → ∃ t u,
    exec (.callNear d) s = .next t ∧ exec .ret (t.setIp x) = .next u ∧
    u.ip = s.ip ∧ u.regs = s.regs ∧ u.segs = s.segs ∧ u.flags = s.flags) ∧
  (∀ (off sg x : Word) (s : State), s.RamWord (phys (s.sreg .ss) (s.r16 .sp - 2)) →
    s.RamWord (phys (s.sreg .ss) (s.r16 .sp - 4)) → ∃ t u,
    exec (.callFar off sg) s = .next t ∧ exec .retf (t.setIp x) = .next u ∧
    u.ip = s.ip ∧ u.regs = s.regs ∧ u.segs = s.segs ∧ u.flags = s.flags)

/-- LOOP, LOOPZ, LOOPNZ count CX down, modulo 2^16, and branch while it is not 0 (and ZF is as they ask);
JCXZ branches when CX is 0. No flag is written. The base of the displacement is the spec's decision D46 (log
10). -/
def Obligations.Loops : Prop :=
  ∀ (d : Byte) (s : State),
    let down := s.setR16 .cx (s.r16 .cx - 1)
    let target := BitVec.ofInt 16 (s.ip.toNat + d.toInt)
    exec (.loopJb d) s = .next (if s.r16 .cx ≠ 1 then down.setIp target else down) ∧
    exec (.loopz d) s = .next (if s.r16 .cx ≠ 1 ∧ s.flags.zf = true then down.setIp target else down) ∧
    exec (.loopnz d) s = .next (if s.r16 .cx ≠ 1 ∧ s.flags.zf = false then down.setIp target else down) ∧
    exec (.jcxz d) s = .next (if s.r16 .cx = 0 then s.setIp target else s)

/-! ## Strings -/

/-- The ten string instructions without a repeat prefix: one element moved, compared, stored, loaded or
scanned, with the bus calls that takes and no other, and SI and DI advanced by the width, up or down as DF says. The
segments are the spec's decision D20 (log 10). -/
def Obligations.StringOnce : Prop :=
  ∀ s : State, s.rep = .none →
    let src := phys (match s.segOverride with
      | some g => s.sreg g
      | none => s.sreg .ds) (s.r16 .si)
    let dst := phys (s.sreg .es) (s.r16 .di)
    let by_ := fun (n v : Word) => if s.flags.df then v - n else v + n
    let a8 := s.readByte src
    let a16 := s.readWord src
    let b8 := (s.afterReadByte src).readByte dst
    let b16 := (s.afterReadWord src).readWord dst
    (∃ t, exec .movsb s = .next t ∧ t.HoldsByte dst a8 ∧ t.flags = s.flags ∧
      t.r16 .si = by_ 1 (s.r16 .si) ∧ t.r16 .di = by_ 1 (s.r16 .di) ∧
      s.Calls t [.writeByte dst a8, .readByte src a8]) ∧
    (∃ t, exec .movsw s = .next t ∧ t.HoldsWord dst a16 ∧ t.flags = s.flags ∧
      t.r16 .si = by_ 2 (s.r16 .si) ∧ t.r16 .di = by_ 2 (s.r16 .di) ∧
      s.Calls t [.writeWord dst a16, .readWord src a16]) ∧
    (∃ t, exec .cmpsb s = .next t ∧ t.flags = subFlags s.params.afMode a8 b8 false s.flags ∧
      t.r16 .si = by_ 1 (s.r16 .si) ∧ t.r16 .di = by_ 1 (s.r16 .di) ∧
      s.Calls t [.readByte dst b8, .readByte src a8]) ∧
    (∃ t, exec .cmpsw s = .next t ∧ t.flags = subFlags s.params.afMode a16 b16 false s.flags ∧
      t.r16 .si = by_ 2 (s.r16 .si) ∧ t.r16 .di = by_ 2 (s.r16 .di) ∧
      s.Calls t [.readWord dst b16, .readWord src a16]) ∧
    (∃ t, exec .stosb s = .next t ∧ t.HoldsByte dst (s.r8 .al) ∧ t.flags = s.flags ∧
      t.r16 .di = by_ 1 (s.r16 .di) ∧ s.Calls t [.writeByte dst (s.r8 .al)]) ∧
    (∃ t, exec .stosw s = .next t ∧ t.HoldsWord dst (s.r16 .ax) ∧ t.flags = s.flags ∧
      t.r16 .di = by_ 2 (s.r16 .di) ∧ s.Calls t [.writeWord dst (s.r16 .ax)]) ∧
    (∃ t, exec .lodsb s = .next t ∧ t.r8 .al = a8 ∧ t.flags = s.flags ∧
      t.r16 .si = by_ 1 (s.r16 .si) ∧ s.Calls t [.readByte src a8]) ∧
    (∃ t, exec .lodsw s = .next t ∧ t.r16 .ax = a16 ∧ t.flags = s.flags ∧
      t.r16 .si = by_ 2 (s.r16 .si) ∧ s.Calls t [.readWord src a16]) ∧
    (∃ t, exec .scasb s = .next t ∧
      t.flags = subFlags s.params.afMode (s.r8 .al) (s.readByte dst) false s.flags ∧
      t.r16 .di = by_ 1 (s.r16 .di) ∧ s.Calls t [.readByte dst (s.readByte dst)]) ∧
    (∃ t, exec .scasw s = .next t ∧
      t.flags = subFlags s.params.afMode (s.r16 .ax) (s.readWord dst) false s.flags ∧
      t.r16 .di = by_ 2 (s.r16 .di) ∧ s.Calls t [.readWord dst (s.readWord dst)])

/-- A repeated string instruction with CX = 0 does nothing but consume the prefix; with CX not 0 it is CX
counted down, one element, and then, unless CMPS or SCAS has met its zero flag, the same repeated
instruction again. That REPZ and REPNZ act alike on MOVS, STOS, LODS is the spec's decision D23 (log 10). -/
def Obligations.RepeatUnrolls : Prop :=
  ∀ (op : StringOp) (i : Instr) (s : State), i = op.instr8 ∨ i = op.instr16 → s.rep ≠ .none →
    (s.r16 .cx = 0 → exec i s = .next { s with rep := .none }) ∧
    (s.r16 .cx ≠ 0 → ∃ t, exec i { s.setR16 .cx (s.r16 .cx - 1) with rep := .none } = .next t ∧
      exec i s =
        if op.compares = true ∧ t.flags.zf = decide (s.rep = .repnz) then .next t
        else exec i { t with rep := s.rep })

/-- REP STOSB stores AL into exactly CX bytes from ES:DI in DF's direction, one call each in that order, and leaves
CX = 0, DI advanced by the count and the prefix consumed; REP STOSW makes one call for each of its CX words, changes
no byte outside them, and each of them holds AX when they share no byte (DI even and CX at most 0x8000). That REPNZ
acts as REP here is the spec's decision D23 (log 10). -/
def Obligations.RepeatedStore : Prop :=
  ∀ s : State, s.rep ≠ .none →
    (∃ t, exec .stosb s = .next t ∧
      (∀ k, k < (s.r16 .cx).toNat → t.HoldsByte (s.destAt 1 k) (s.r8 .al)) ∧
      (∀ pa, (∀ k, k < (s.r16 .cx).toNat → pa ≠ s.destAt 1 k) → t.memByte pa = s.memByte pa) ∧
      s.Calls t ((List.range (s.r16 .cx).toNat).map fun k => .writeByte (s.destAt 1 k) (s.r8 .al)).reverse ∧
      t.r16 .cx = 0 ∧ t.r16 .di = s.diAt 1 (s.r16 .cx).toNat ∧ t.rep = .none ∧ t.flags = s.flags) ∧
    (∃ t, exec .stosw s = .next t ∧
      ((s.r16 .di).toNat % 2 = 0 → (s.r16 .cx).toNat ≤ 0x8000 →
        ∀ k, k < (s.r16 .cx).toNat → t.HoldsWord (s.destAt 2 k) (s.r16 .ax)) ∧
      (∀ pa, (∀ k, k < (s.r16 .cx).toNat → pa ≠ s.destAt 2 k ∧ pa ≠ s.destAt 2 k + 1) →
        t.memByte pa = s.memByte pa) ∧
      s.Calls t ((List.range (s.r16 .cx).toNat).map fun k => .writeWord (s.destAt 2 k) (s.r16 .ax)).reverse ∧
      t.r16 .cx = 0 ∧ t.r16 .di = s.diAt 2 (s.r16 .cx).toNat ∧ t.rep = .none ∧ t.flags = s.flags)

/-! ## Shifts and rotates -/

/-- The twenty-eight shifts and rotates: count 1, or CL unmasked. The operand is read; a count of 0 changes nothing
more; otherwise the operand is stepped that often and written once, CF is the last bit out, OF is the count-1 rule's
for a count of 1, shifts set SF, ZF and PF and rotates keep SF, ZF, PF and AF. The count-1 rule for each operation is
given too. The unmasked count and the OF of rotates, SHR and SAR are the spec's decisions D29 and D30 (log 10); OF
for a greater count is a free value (log 6). -/
def Obligations.ShiftForms : Prop :=
  (∀ (op : ShiftOp) (m : Rm Reg8) (s : State),
    (∃ t r, exec (op.instrEb1 m) s = .next t ∧ s.ShiftLeaves op 1 (s.rmByte m) r t ∧ s.RmHolds8 t m r ∧
      s.Calls t (s.rmWrites8 m r ++ s.rmReads8 m)) ∧
    (s.r8 .cl = 0 → exec (op.instrEbCl m) s = .next (s.loaded8 m)) ∧
    (s.r8 .cl ≠ 0 → ∃ t r, exec (op.instrEbCl m) s = .next t ∧
      s.ShiftLeaves op (s.r8 .cl).toNat (s.rmByte m) r t ∧ s.RmHolds8 t m r ∧
      s.Calls t (s.rmWrites8 m r ++ s.rmReads8 m))) ∧
  (∀ (op : ShiftOp) (m : Rm Reg16) (s : State),
    (∃ t r, exec (op.instrEv1 m) s = .next t ∧ s.ShiftLeaves op 1 (s.rmWord m) r t ∧ s.RmHolds16 t m r ∧
      s.Calls t (s.rmWrites16 m r ++ s.rmReads16 m)) ∧
    (s.r8 .cl = 0 → exec (op.instrEvCl m) s = .next (s.loaded16 m)) ∧
    (s.r8 .cl ≠ 0 → ∃ t r, exec (op.instrEvCl m) s = .next t ∧
      s.ShiftLeaves op (s.r8 .cl).toNat (s.rmWord m) r t ∧ s.RmHolds16 t m r ∧
      s.Calls t (s.rmWrites16 m r ++ s.rmReads16 m))) ∧
  (∀ (w : Nat) (v0 v : BitVec w) (cf : Bool) (op : ShiftOp), w = 8 ∨ w = 16 →
    op.of1 v0 v cf = match op with
      | .rol | .rcl => decide (v.msb ≠ cf)
      | .ror | .rcr => decide (v.getLsbD (w - 1) ≠ v.getLsbD (w - 2))
      | .shl => decide (v.msb ≠ v0.msb)
      | .shr => v0.msb
      | .sar => false)

/-- What the steps of a shift or rotate of 8 or 16 bits add up to, for every count of 1 or more: SHL
multiplies, SHR divides, SAR divides the signed value rounding down, with CF the last bit out; ROL and ROR
rotate with CF the bit that came round last; one step of RCL shifts the carry in at the bottom and the top bit out to
it, one step of RCR the carry in at the top and the bottom bit out to it, and any number of steps rotates the
width + 1 bits of CF and the value, so that width + 1 steps come back. The unmasked count is the spec's decision D29
(log 10). -/
def Obligations.ShiftArithmetic : Prop :=
  ∀ (w : Nat) (v : BitVec w) (c : Bool) (n : Nat), w = 8 ∨ w = 16 → n ≠ 0 →
    ((ShiftOp.shl.iter n (v, c)).1.toNat = v.toNat * 2 ^ n % 2 ^ w ∧
      (ShiftOp.shl.iter n (v, c)).2 = (decide (n ≤ w) && v.getLsbD (w - n))) ∧
    ((ShiftOp.shr.iter n (v, c)).1.toNat = v.toNat / 2 ^ n ∧
      (ShiftOp.shr.iter n (v, c)).2 = v.getLsbD (n - 1)) ∧
    ((ShiftOp.sar.iter n (v, c)).1.toInt = v.toInt / 2 ^ n ∧
      (ShiftOp.sar.iter n (v, c)).2 = decide (v.toInt / 2 ^ (n - 1) % 2 = 1)) ∧
    ((ShiftOp.rol.iter n (v, c)).1 = v.rotateLeft n ∧
      (ShiftOp.rol.iter n (v, c)).2 = (v.rotateLeft n).getLsbD 0) ∧
    ((ShiftOp.ror.iter n (v, c)).1 = v.rotateRight n ∧
      (ShiftOp.ror.iter n (v, c)).2 = (v.rotateRight n).msb) ∧
    ((ShiftOp.rcl.iter 1 (v, c)).1.toNat = (v.toNat * 2 + c.toNat) % 2 ^ w ∧
      (ShiftOp.rcl.iter 1 (v, c)).2 = v.msb) ∧
    ((ShiftOp.rcr.iter 1 (v, c)).1.toNat = v.toNat / 2 + c.toNat * 2 ^ (w - 1) ∧
      (ShiftOp.rcr.iter 1 (v, c)).2 = v.getLsbD 0) ∧
    BitVec.cons (ShiftOp.rcl.iter n (v, c)).2 (ShiftOp.rcl.iter n (v, c)).1 = (BitVec.cons c v).rotateLeft n ∧
    BitVec.cons (ShiftOp.rcr.iter n (v, c)).2 (ShiftOp.rcr.iter n (v, c)).1 = (BitVec.cons c v).rotateRight n ∧
    ShiftOp.rcl.iter (w + 1) (v, c) = (v, c) ∧ ShiftOp.rcr.iter (w + 1) (v, c) = (v, c)

/-! ## Stack and ports -/

/-- The pushes: SP goes down by 2 and the word at SS:SP is the operand's value from before, except that PUSH
SP, in both its forms, stores the decremented SP; a memory operand is read before the word is written, each by one
call. The ModRM form of PUSH SP is the spec's decision D28 (log 10). -/
def Obligations.PushForms : Prop :=
  ∀ s : State,
    let pa := phys (s.sreg .ss) (s.r16 .sp - 2)
    (∀ r : Reg16, let v := if r = .sp then s.r16 .sp - 2 else s.r16 r
      ∃ t, exec (.pushR16 r) s = .next t ∧ t.r16 .sp = s.r16 .sp - 2 ∧ t.HoldsWord pa v ∧
      s.Calls t [.writeWord pa v]) ∧
    (∀ g : SegReg, ∃ t, exec (.pushSreg g) s = .next t ∧ t.r16 .sp = s.r16 .sp - 2 ∧ t.HoldsWord pa (s.sreg g) ∧
      s.Calls t [.writeWord pa (s.sreg g)]) ∧
    (∀ m : Rm Reg16, let v := if m = .reg .sp then s.r16 .sp - 2 else s.rmWord m
      ∃ t, exec (.pushEv m) s = .next t ∧ t.r16 .sp = s.r16 .sp - 2 ∧ t.HoldsWord pa v ∧
      s.Calls t (.writeWord pa v :: s.rmReads16 m)) ∧
    (∃ t, exec .pushf s = .next t ∧ t.r16 .sp = s.r16 .sp - 2 ∧ t.HoldsWord pa s.packed ∧
      s.Calls t [.writeWord pa s.packed])

/-- The pops: the word at SS:SP from before goes to the destination and SP goes up by 2; POP SP, in both its
forms, ends with the popped value. The word is read by one call, and a memory destination then written by one. -/
def Obligations.PopForms : Prop :=
  ∀ s : State,
    let pa := phys (s.sreg .ss) (s.r16 .sp)
    let v := s.readWord pa
    (∀ r : Reg16, ∃ t, exec (.popR16 r) s = .next t ∧ t.r16 r = v ∧ (r ≠ .sp → t.r16 .sp = s.r16 .sp + 2) ∧
      s.Calls t [.readWord pa v]) ∧
    (∀ g : SegReg, ∃ t, exec (.popSreg g) s = .next t ∧ t.sreg g = v ∧ t.r16 .sp = s.r16 .sp + 2 ∧
      s.Calls t [.readWord pa v]) ∧
    (∀ m : Rm Reg16, ∃ t, exec (.popEv m) s = .next t ∧ s.RmHolds16 t m v ∧
      (m ≠ .reg .sp → t.r16 .sp = s.r16 .sp + 2) ∧ s.Calls t (s.rmWrites16 m v ++ [.readWord pa v])) ∧
    (∃ t, exec .popf s = .next t ∧ t.r16 .sp = s.r16 .sp + 2 ∧ t.flags = flagsOfPacked v ∧
      s.Calls t [.readWord pa v])

/-- When the stack's bytes are RAM, PUSH then POP of the same register other than SP restores every register, SP
included; into another register it copies the value; PUSH SP then POP SP leaves SP lower by 2. -/
def Obligations.PushThenPop : Prop :=
  ∀ s : State, s.RamWord (phys (s.sreg .ss) (s.r16 .sp - 2)) →
    (∀ r : Reg16, r ≠ .sp → ∃ t u,
      exec (.pushR16 r) s = .next t ∧ exec (.popR16 r) t = .next u ∧ u.regs = s.regs) ∧
    (∀ r q : Reg16, r ≠ .sp → q ≠ .sp → ∃ t u,
      exec (.pushR16 r) s = .next t ∧ exec (.popR16 q) t = .next u ∧ u.regs = s.regs.set q (s.r16 r)) ∧
    (∃ t u,
      exec (.pushR16 .sp) s = .next t ∧ exec (.popR16 .sp) t = .next u ∧ u.regs = s.regs.set .sp (s.r16 .sp - 2))

/-- IN reads one byte of the immediate or DX port into AL, by one call: the host's next answer, which is taken off the
queue, else a free value; OUT writes AL to the port, by one call. The queue, the free value and the record of the
calls are the model's view of the bus (log 5). -/
def Obligations.Ports : Prop :=
  ∀ (i : Byte) (s : State),
    (∀ (port : Word) (j : Instr), j = .inAlIb i ∧ port = i.setWidth 16 ∨ j = .inAlDx ∧ port = s.r16 .dx →
      (∀ b bs, s.bus.portIn = b :: bs → ∃ t, exec j s = .next t ∧ t.r8 .al = b ∧
        t.bus = { s.bus with portIn := bs, calls := .ioRead port b :: s.bus.calls }) ∧
      (s.bus.portIn = [] → ∃ t, exec j s = .next t ∧ t.r8 .al = Config.freePortByte s.bus.draws ∧
        t.bus = { s.bus with
          draws := s.bus.draws + 1, calls := .ioRead port (Config.freePortByte s.bus.draws) :: s.bus.calls })) ∧
    exec (.outIbAl i) s = .next { s with bus := { s.bus with
      calls := .ioWrite (i.setWidth 16) (s.r8 .al) :: s.bus.calls } } ∧
    exec .outDxAl s = .next { s with bus := { s.bus with
      calls := .ioWrite (s.r16 .dx) (s.r8 .al) :: s.bus.calls } }

/-! ## Processor control and prefixes -/

/-- The flag-setting instructions each write one flag, HLT sets `halted`, WAIT and NOP do nothing, ESC only
decodes its operand, and each prefix writes its one field of the prefix state. HLT, WAIT, ESC and LOCK are
the spec's decisions D6, D4, D3, D5 (log 10). -/
def Obligations.ControlAndPrefixes : Prop :=
  (∀ s : State,
    exec .clc s = .next { s with flags := { s.flags with cf := false } } ∧
    exec .stc s = .next { s with flags := { s.flags with cf := true } } ∧
    exec .cmc s = .next { s with flags := { s.flags with cf := !s.flags.cf } } ∧
    exec .cli s = .next { s with flags := { s.flags with ief := false } } ∧
    exec .sti s = .next { s with flags := { s.flags with ief := true } } ∧
    exec .cld s = .next { s with flags := { s.flags with df := false } } ∧
    exec .std s = .next { s with flags := { s.flags with df := true } } ∧
    exec .hlt s = .next { s with halted := true } ∧
    exec .wait s = .next s ∧ exec .nop s = .next s ∧
    exec .pfxEs s = .next { s with segOverride := some .es } ∧
    exec .pfxCs s = .next { s with segOverride := some .cs } ∧
    exec .pfxSs s = .next { s with segOverride := some .ss } ∧
    exec .pfxDs s = .next { s with segOverride := some .ds } ∧
    exec .pfxLock s = .next { s with lock := true } ∧
    exec .pfxRepnz s = .next { s with rep := .repnz } ∧
    exec .pfxRepz s = .next { s with rep := .repz }) ∧
  (∀ (k q : BitVec 3) (m : Rm Reg16) (s : State),
    exec (.esc k q m) s = .next { s with segOverride := s.overrideAfter (.esc k q m) })

/-! ## Interrupts and faults -/

/-- Interrupt entry, by INT n for any n: FLAGS, CS and IP are pushed in that order, SP is lower by 6,
TF and IF are clear and no other flag changes; CS and IP are what the bus answers for the vector's two words, and the
vector table's words as they stood when memory holds them and none of their bytes is among the six stored. The order
of the accesses is the spec's decision D47 (log 10). -/
def Obligations.InterruptEntry : Prop :=
  ∀ (n : Byte) (s : State), ∃ t, exec (.intIb n) s = .next t ∧
    t.HoldsWord (phys (s.sreg .ss) (s.r16 .sp - 2)) s.packed ∧
    t.HoldsWord (phys (s.sreg .ss) (s.r16 .sp - 4)) (s.sreg .cs) ∧
    t.HoldsWord (phys (s.sreg .ss) (s.r16 .sp - 6)) s.ip ∧
    t.r16 .sp = s.r16 .sp - 6 ∧ t.flags = { s.flags with tf := false, ief := false } ∧
    (∀ v : PAddr, v.toNat = n.toNat * 4 →
      s.Calls t [.readWord v t.ip, .writeWord (phys (s.sreg .ss) (s.r16 .sp - 6)) s.ip,
        .readWord (v + 2) (t.sreg .cs), .writeWord (phys (s.sreg .ss) (s.r16 .sp - 4)) (s.sreg .cs),
        .writeWord (phys (s.sreg .ss) (s.r16 .sp - 2)) s.packed] ∧
      ((∀ pa ∈ s.pushBytes 3, pa ≠ v ∧ pa ≠ v + 1 ∧ pa ≠ v + 2 ∧ pa ≠ v + 3) → ∀ x : Word,
        (s.memWord v = some x → t.ip = x) ∧ (s.memWord (v + 2) = some x → t.sreg .cs = x)))

/-- INT 3 is INT with vector 3; INTO is INT with vector 4 when OF is set and does nothing otherwise; none
looks at IF. That IF does not gate them the spec says from general knowledge. -/
def Obligations.SoftwareInterrupts : Prop :=
  ∀ s : State,
    (∃ t, exec .int3 s = .next t ∧ exec (.intIb 3) s = .next t ∧ t = s.serviceInterrupt 3) ∧
    (s.flags.ovf = true → ∃ t, exec .into s = .next t ∧ exec (.intIb 4) s = .next t) ∧
    (s.flags.ovf = false → exec .into s = .next s) ∧
    (∀ (n : Byte) (b : Bool), ∃ t u,
      exec (.intIb n) s = .next t ∧
      exec (.intIb n) { s with flags := { s.flags with ief := b } } = .next u ∧
      t.r16 .sp = u.r16 .sp ∧ t.flags = u.flags)

/-- R494: IRET pops IP, CS and FLAGS, all nine flags from the popped word, in that order, and SP is higher by 6. -/
def Obligations.IretPops : Prop :=
  ∀ s : State,
    let p0 := phys (s.sreg .ss) (s.r16 .sp)
    let p1 := phys (s.sreg .ss) (s.r16 .sp + 2)
    let p2 := phys (s.sreg .ss) (s.r16 .sp + 4)
    let s1 := s.afterReadWord p0
    let s2 := s1.afterReadWord p1
    ∃ t, exec .iret s = .next t ∧ t.ip = s.readWord p0 ∧ t.sreg .cs = s1.readWord p1 ∧
    t.flags = flagsOfPacked (s2.readWord p2) ∧
    t.r16 .sp = s.r16 .sp + 6 ∧ (∀ r, r ≠ .sp → t.r16 r = s.r16 r) ∧
    (∀ g, g ≠ .cs → t.sreg g = s.sreg g) ∧ t.bus.mem = s.bus.mem ∧ t.halted = s.halted

/-- IRET reverses interrupt entry, wherever the handler's IRET stands, when the stack's bytes are RAM: IP, the segment
registers, the flags, TF and IF among them, and every register are as they were, and IRET makes three calls, each
reading back one of the words the entry stored. The premise on the forced bits holds for the default 0xF002 (log 7);
the record of the calls is the model's (log 5). -/
def Obligations.InterruptThenIret : Prop :=
  ∀ (n : Byte) (x : Word) (s : State), s.params.flagsForcedOnes &&& 0x0FD5 = 0 →
    (∀ pa ∈ s.pushBytes 3, s.kindAt pa = .ram) →
    ∃ t u, exec (.intIb n) s = .next t ∧ exec .iret (t.setIp x) = .next u ∧
      u.ip = s.ip ∧ u.segs = s.segs ∧ u.regs = s.regs ∧ u.flags = s.flags ∧
      t.Calls u [.readWord (phys (s.sreg .ss) (s.r16 .sp - 2)) s.packed,
        .readWord (phys (s.sreg .ss) (s.r16 .sp - 4)) (s.sreg .cs),
        .readWord (phys (s.sreg .ss) (s.r16 .sp - 6)) s.ip]

/-- An encoding that selects no instruction leaves a fault record with the opcode byte, the ModRM byte if one
was read, and the CS:IP of the opcode byte, and writes nothing else but the `seg_override` the decoder leaves for a
BP-based operand. The record's contents are the spec's decision D40 (log 10); that the SS default of such an operand
stays written (DEDUCED) and that the error is a next state are the model's (log 9). -/
def Obligations.InvalidOpcodeRecorded : Prop :=
  (∀ (b : Byte) (s : State), exec (.invalidOp b) s
    = .next { s with faultRec := some ⟨.invalidOpcode, b, none, s.opCs, s.opIp⟩ }) ∧
  (∀ (b : Byte) (q : BitVec 3) (m : Rm (BitVec 3)) (s : State), exec (.invalidSub b q m) s
    = .next { s.decoded m with
        faultRec := some ⟨.invalidOpcode, b, (encode (.invalidSub b q m))[1]?, s.opCs, s.opIp⟩ }) ∧
  (∀ (b : Byte) (q n : BitVec 3) (s : State), exec (.invalidForm b q n) s
    = .next { s with faultRec := some ⟨.invalidOpcode, b, (encode (.invalidForm b q n))[1]?, s.opCs, s.opIp⟩ })

/-! ## The step -/

/-- A step runs the decoded instruction: when the core fetches, and the bus answers the fetches from CS:IP on with the
bytes of a well-formed instruction that is no prefix, `step` reads exactly those bytes, one call each, moves IP past
them, executes the instruction at that state, whose op_cs:op_ip is its address, and makes the checks at the end of a
fetch; a prefix is executed the same way and the fetch goes on with the bytes after it. The one or two bytes of the
immediate of TEST r/m,imm are left to its meaning, which reads them after the operand (the spec's decision D37, log
10). That the handler's first instruction runs in the step whose poll served the request is its decision D34, the
single step its D7 (logs 7, 10); the kept record (log 9) and the bound `prefixLimit` on prefixes (log 14) are the
model's choices. -/
def Obligations.StepRunsDecodedInstruction : Prop :=
  (∀ s : State, s.fetches → step s = runInstr prefixLimit s.poll.clearPrefixes) ∧
  (∀ (s t : State) (i : Instr) (n : Nat), i.wf = true → s.beginInstr.Presents i →
    exec i (s.beginInstr.atExec i) = .next t →
    (isPrefixByte i = false → runInstr (n + 1) s = .next (t.finish s.fetchByte s.flags.tf)) ∧
    (isPrefixByte i = true → runInstr (n + 1) s = runInstr n t)) ∧
  (∀ s : State, s.beginInstr = { s with opCs := s.sreg .cs, opIp := s.ip } ∧
    s.fetchByte = s.readByte (phys (s.sreg .cs) s.ip) ∧
    s.afterFetchByte = { s.afterReadByte (phys (s.sreg .cs) s.ip) with ip := s.ip + 1 }) ∧
  (∀ (n : Nat) (s : State), (s.afterBytes n).ip = s.ip + BitVec.ofNat 16 n ∧
    (s.afterBytes n).bus.calls.length = s.bus.calls.length + n) ∧
  (∀ (s : State) (i : Instr),
    s.atExec i = (s.afterBytes (fetchedBytes i)).setIp (s.ip + BitVec.ofNat 16 (encode i).length) ∧
    fetchedBytes i + (match i with | .testEbIb _ _ => 1 | .testEvIv _ _ => 2 | _ => 0) = (encode i).length) ∧
  (∀ (t : State) (b : Byte) (tf : Bool),
    (t.faultRec ≠ none → t.finish b tf = t) ∧
    (t.faultRec = none → t.rep ≠ .none → t.finish b tf
      = { t with faultRec := some ⟨.unsupportedPrefixCombination, b, none, t.opCs, t.opIp⟩ }) ∧
    (t.faultRec = none → t.rep = .none → t.finish b tf
      = if t.params.singleStep = true ∧ tf = true then t.serviceInterrupt 1 else t))

/-- A repeat prefix before an instruction that does not declare repeat support, and is not invalid, is
fatal: the fetch executes the instruction and ends with UnsupportedPrefixCombination, reported against the
opcode byte at its CS:IP. The report's address is the spec's decision D40 (log 10); that the error is a next
state is the model's choice (log 9). -/
def Obligations.RepeatPrefixIsFatal : Prop :=
  ∀ (s : State) (i : Instr) (n : Nat),
    s.rep ≠ .none → s.faultRec = none → i.wf = true → s.beginInstr.Presents i →
    isPrefixByte i = false → declaresRepeat i = false → isInvalid i = false →
    ∃ t u, exec i (s.beginInstr.atExec i) = .next t ∧ runInstr (n + 1) s = .next u ∧
      u = { t with
        faultRec := some ⟨.unsupportedPrefixCombination, s.fetchByte, none, s.sreg .cs, s.ip⟩ }

/-- The poll and the states that do not fetch: a pending vector is taken at the start of a step exactly when
IF is set, and wakes a halted core; a halted core that takes none is unchanged by its step; a faulted core
and a core without a bus refuse. The poll and the halted core are the spec's decisions D6 and D9 (log 10),
the refusals D27 and D38 (logs 8, 9), the queue of requests the model's (log 4). -/
def Obligations.PollAndRefusals : Prop :=
  (∀ (s : State) (v : Byte) (vs : List Byte), s.irq = v :: vs → s.flags.ief = true →
    s.poll = { ({ s with irq := vs } : State).serviceInterrupt v with halted := false }) ∧
  (∀ s : State, s.irq = [] ∨ s.flags.ief = false → s.poll = s) ∧
  (∀ s : State, s.busInstalled = true → s.faultRec = none → s.halted = true →
    s.irq = [] ∨ s.flags.ief = false → step s = .next s) ∧
  (∀ s : State, s.busInstalled = true → s.faultRec ≠ none → step s = .refused .faulted) ∧
  (∀ s : State, s.busInstalled = false → step s = .refused .busNotInstalled)

/-- Nothing else fails: when the core fetches, the step answers a next state, unless the fetch never ends, every byte
that memory holds in the code segment being a prefix. The hang is the spec's decision D39; that it is a
fault is the model's choice (log 14). -/
def Obligations.EveryFetchEnds : Prop :=
  ∀ s : State, s.fetches → (∃ t, step s = .next t) ∨
    step s = .fault .endlessPrefixes ∧ ∀ (k : Word) (b : Byte),
      s.poll.memByte (phys (s.poll.sreg .cs) (s.poll.ip + k)) = some b →
        b ∈ [0x26, 0x2E, 0x36, 0x3E, 0xF0, 0xF2, 0xF3]

/-! ## Invariant and frames -/

/-- Every step keeps the memory's canonical form, from every state that has it: addresses rising below 2^20,
no cell behind a device window. The form is the model's choice (log 3). -/
def Obligations.StepKeepsMemoryForm : Prop :=
  ∀ s t : State, s.memOk → step s = .next t → t.memOk

/-- FRAME, all instructions: every word register, byte half and segment register outside those the
instruction writes is kept, and CS is written only by far transfers, IRET and interrupt entry. -/
def Obligations.RegisterFrame : Prop :=
  ∀ (i : Instr) (s t : State), exec i s = .next t →
    (∀ r : Reg16, r ∉ s.writtenRegs i → (∀ h ∈ s.writtenHalves i, parentReg h ≠ r) → t.r16 r = s.r16 r) ∧
    (∀ h : Reg8, parentReg h ∉ s.writtenRegs i → h ∉ s.writtenHalves i → t.r8 h = s.r8 h) ∧
    (∀ g : SegReg, g ∉ s.writtenSegs i → t.sreg g = s.sreg g) ∧
    (i.wf = true → writesCs i = false → t.sreg .cs = s.sreg .cs)

/-- FRAME, all instructions: every byte of memory outside the bytes the instruction stores to is as before, for a form
that stores nothing every byte; the map of kinds is kept, bus calls are only added, and an instruction that accesses
neither memory nor ports leaves the whole bus as it was. The map and the record of the calls are the model's (logs 3,
5). -/
def Obligations.MemoryFrame : Prop :=
  ∀ (i : Instr) (s t : State), exec i s = .next t →
    (∀ pa : PAddr, pa ∉ s.storedBytes i → t.memByte pa = s.memByte pa) ∧
    (∀ pa : PAddr, t.kindAt pa = s.kindAt pa) ∧ (∃ cs, s.Calls t cs) ∧
    (s.callsBus i = false → t.bus = s.bus)

/-- FRAME, all instructions: every flag outside those the instruction's rule says it writes (or leaves
undefined) is kept. A flag it leaves undefined keeps its value, and nothing is drawn, under P_UNDEF_FLAGS = unchanged;
under draw each is a free value of its own. That choice is the spec's decision D14; the free values are the model's
(log 6), the parameter's default is log 7's. -/
def Obligations.FlagFrame : Prop :=
  ∀ (i : Instr) (s t : State), exec i s = .next t →
    (∀ n : FlagName, n ∉ s.writtenFlags i → t.flags.get n = s.flags.get n) ∧
    (s.params.undefFlags = .unchanged → t.draws = s.draws ∧
      ∀ n ∈ s.undefinedFlags i, t.flags.get n = s.flags.get n) ∧
    (s.params.undefFlags = .draw → t.draws = s.draws + (s.undefinedFlags i).length ∧
      ∀ (k : Nat) (n : FlagName), (s.undefinedFlags i)[k]? = some n →
        t.flags.get n = Config.freeFlag (s.draws + k))

/-- FRAME, all instructions: IP moves only by control transfers and interrupt entry; `halted` is set only by HLT; the
fault record is written only by an invalid encoding; `seg_override`, `rep` and `lock` are as the decoder, the prefixes
and the string instructions leave them; pending requests, op_cs, op_ip, the parameters, the bus connection and the
bus's map are kept; only IN takes port answers. op_cs and op_ip between fetches, the map, the answers, the requests,
the parameters and the connection are the model's fields (logs 2 to 5, 7, 8). -/
def Obligations.ControlFrame : Prop :=
  ∀ (i : Instr) (s t : State), exec i s = .next t →
    (s.movesIp i = false → t.ip = s.ip) ∧
    t.halted = (s.halted || decide (i = .hlt)) ∧
    (isInvalid i = false → t.faultRec = s.faultRec) ∧
    t.segOverride = s.overrideAfter i ∧ t.rep = s.repAfter i ∧
    t.lock = (s.lock || decide (i = .pfxLock)) ∧
    t.irq = s.irq ∧ t.opCs = s.opCs ∧ t.opIp = s.opIp ∧ t.params = s.params ∧
    t.busInstalled = s.busInstalled ∧ t.bus.windows = s.bus.windows ∧
    ((∀ b, i ≠ .inAlIb b) → i ≠ .inAlDx → t.bus.portIn = s.bus.portIn)
end

