-- ==== Sys2Proof/Laws/Decode.lean ====
section
/-! SUPPORT. The fields of an encoding: each is read back from where it was put, and each list the decoder
accepts is the one the encoder writes (30_encoding.md R121 to R138). -/

namespace Sys2Proof

/-! ## Register numbers -/

@[simp] theorem reg16_bits (r : Reg16) : reg16 r.bits = r := by cases r <;> rfl
@[simp] theorem reg8_bits (r : Reg8) : reg8 r.bits = r := by cases r <;> rfl
@[simp] theorem baseIdx_bits (b : BaseIdx) : baseIdx b.bits = b := by cases b <;> rfl
@[simp] theorem bits_reg16 (q : BitVec 3) : (reg16 q).bits = q := by revert q; decide
@[simp] theorem bits_reg8 (q : BitVec 3) : (reg8 q).bits = q := by revert q; decide
@[simp] theorem bits_baseIdx (q : BitVec 3) : (baseIdx q).bits = q := by revert q; decide

theorem Rm.map_map {R S T : Type} (f : R → S) (g : S → T) (m : Rm R) : (m.map f).map g = m.map (g ∘ f) := by
  cases m <;> rfl

@[simp] theorem Rm.map_reg8_bits (m : Rm Reg8) : (m.map Reg8.bits).map reg8 = m := by
  cases m <;> simp [Rm.map]
@[simp] theorem Rm.map_reg16_bits (m : Rm Reg16) : (m.map Reg16.bits).map reg16 = m := by
  cases m <;> simp [Rm.map]
@[simp] theorem Rm.map_bits_reg8 (m : Rm (BitVec 3)) : (m.map reg8).map Reg8.bits = m := by
  cases m <;> simp [Rm.map]
@[simp] theorem Rm.map_bits_reg16 (m : Rm (BitVec 3)) : (m.map reg16).map Reg16.bits = m := by
  cases m <;> simp [Rm.map]
@[simp] theorem Rm.wf_reg {R : Type} (r : R) : (Rm.reg r).wf = true := rfl
@[simp] theorem Rm.wf_mem {R : Type} (p : MemOp) : (Rm.mem p : Rm R).wf = p.wf := rfl
@[simp] theorem Rm.wf_map {R S : Type} (f : R → S) (m : Rm R) : (m.map f).wf = m.wf := by
  cases m <;> rfl

/-! ## Bytes of a word -/

@[simp] theorem lowByte_leWord (lo hi : Byte) : lowByte (leWord lo hi) = lo := by
  ext k hk
  simp only [lowByte, leWord, BitVec.getElem_extractLsb', BitVec.getLsbD_append]
  simp [hk]

@[simp] theorem highByte_leWord (lo hi : Byte) : highByte (leWord lo hi) = hi := by
  ext k hk
  simp only [highByte, leWord, BitVec.getElem_extractLsb', BitVec.getLsbD_append]
  simp [BitVec.getLsbD_eq_getElem hk]

@[simp] theorem leWord_low_high (v : Word) : leWord (lowByte v) (highByte v) = v := by
  apply BitVec.eq_of_getLsbD_eq
  intro k hk
  simp only [lowByte, highByte, leWord]
  rw [BitVec.getLsbD_append]
  simp only [BitVec.getLsbD_extractLsb']
  by_cases h : k < 8
  · simp [h]
  · have h8 : k - 8 < 8 := by omega
    simp [h, h8, show 8 + (k - 8) = k by omega]

/-- The low byte as a number. -/
@[simp] theorem lowByte_toNat (v : Word) : (lowByte v).toNat = v.toNat % 256 := by
  simp [lowByte]

/-- The high byte as a number. -/
@[simp] theorem highByte_toNat (v : Word) : (highByte v).toNat = v.toNat / 256 := by
  simp [highByte, Nat.shiftRight_eq_div_pow]
  omega

/-- A word as a number, from its bytes (20_memory.md R85). -/
@[simp] theorem leWord_toNat (lo hi : Byte) : (leWord lo hi).toNat = lo.toNat + 256 * hi.toNat := by
  simp only [leWord]
  rw [BitVec.toNat_append, ← Nat.shiftLeft_add_eq_or_of_lt lo.isLt, Nat.shiftLeft_eq]
  omega

/-- A sign-extended byte has the byte's signed value (00_scope.md R9). -/
theorem sext16_toInt (b : Byte) : (sext16 b).toInt = b.toInt :=
  BitVec.toInt_signExtend_of_le (by decide)

/-- A relative target is IP plus the signed displacement, modulo 2^16 (43_control_transfer.md R340). -/
theorem add_eq_ofInt (ip d : Word) : ip + d = BitVec.ofInt 16 (ip.toNat + d.toInt) := by
  apply BitVec.eq_of_toInt_eq
  rw [BitVec.toInt_add, BitVec.toInt_ofInt, BitVec.toInt_eq_toNat_bmod ip]
  simp

/-- A relative target of a byte displacement (43_control_transfer.md R340). -/
theorem add_sext16_eq_ofInt (ip : Word) (d : Byte) :
    ip + sext16 d = BitVec.ofInt 16 (ip.toNat + d.toInt) := by
  rw [add_eq_ofInt, sext16_toInt]

/-! ## ModRM fields -/

@[simp] theorem leBytes_leWord (lo hi : Byte) : leBytes (leWord lo hi) = [lo, hi] := by simp [leBytes]

@[simp] theorem modField_modrmByte (md : BitVec 2) (q rm : BitVec 3) : modField (modrmByte md q rm) = md := by
  revert md q rm; decide

@[simp] theorem regField_modrmByte (md : BitVec 2) (q rm : BitVec 3) : regField (modrmByte md q rm) = q := by
  revert md q rm; decide

@[simp] theorem rmField_modrmByte (md : BitVec 2) (q rm : BitVec 3) : rmField (modrmByte md q rm) = rm := by
  revert md q rm; decide

/-- A ModRM byte is its three fields. -/
theorem modrmByte_fields (b : Byte) : modrmByte (modField b) (regField b) (rmField b) = b := by
  revert b; decide

/-! ## Reading what was written -/

@[simp] theorem withByte_cons (b : Byte) (rest : List Byte) (k : Byte → List Byte → Parsed) :
    withByte (b :: rest) k = k b rest := rfl

@[simp] theorem withWord_leBytes (v : Word) (rest : List Byte) (k : Word → List Byte → Parsed) :
    withWord (leBytes v ++ rest) k = k v rest := by
  simp [withWord, leBytes]

/-- The addressing decoder reads back a reg field and an r/m operand (30_encoding.md R129, R132). -/
theorem withModrm_encModrm (q : BitVec 3) (m : Rm (BitVec 3)) (rest : List Byte)
    (k : BitVec 3 → Rm (BitVec 3) → List Byte → Parsed) (h : m.wf = true) :
    withModrm (encModrm q m ++ rest) k = k q m rest := by
  cases m with
  | reg n => simp [withModrm, encModrm]
  | mem p =>
    cases p with
    | base b =>
      have hb : b.bits ≠ 6#3 := by cases b <;> simp_all [Rm.wf, MemOp.wf, BaseIdx.bits]
      simp [withModrm, encModrm, hb]
    | disp8 b d => simp [withModrm, encModrm]
    | disp16 b d => simp [withModrm, encModrm]
    | direct a => simp [withModrm, encModrm]

/-! ## Each form reads back what it was written from -/

theorem formEbGb_encModrm (f : Rm Reg8 → Reg8 → Instr) (m : Rm Reg8) (r : Reg8) (rest : List Byte)
    (h : m.wf = true) : formEbGb f (encModrm r.bits (m.map Reg8.bits) ++ rest) = .ok (f m r, rest) := by
  simp [formEbGb, withModrm_encModrm, h]

theorem formEvGv_encModrm (f : Rm Reg16 → Reg16 → Instr) (m : Rm Reg16) (r : Reg16) (rest : List Byte)
    (h : m.wf = true) : formEvGv f (encModrm r.bits (m.map Reg16.bits) ++ rest) = .ok (f m r, rest) := by
  simp [formEvGv, withModrm_encModrm, h]

theorem formGbEb_encModrm (f : Reg8 → Rm Reg8 → Instr) (r : Reg8) (m : Rm Reg8) (rest : List Byte)
    (h : m.wf = true) : formGbEb f (encModrm r.bits (m.map Reg8.bits) ++ rest) = .ok (f r m, rest) := by
  simp [formGbEb, withModrm_encModrm, h]

theorem formGvEv_encModrm (f : Reg16 → Rm Reg16 → Instr) (r : Reg16) (m : Rm Reg16) (rest : List Byte)
    (h : m.wf = true) : formGvEv f (encModrm r.bits (m.map Reg16.bits) ++ rest) = .ok (f r m, rest) := by
  simp [formGvEv, withModrm_encModrm, h]

@[simp] theorem formIb_cons (f : Byte → Instr) (i : Byte) (rest : List Byte) :
    formIb f (i :: rest) = .ok (f i, rest) := rfl

@[simp] theorem formIv_leBytes (f : Word → Instr) (i : Word) (rest : List Byte) :
    formIv f (leBytes i ++ rest) = .ok (f i, rest) := by
  simp [formIv]

@[simp] theorem formPtr_leBytes (f : Word → Word → Instr) (off sg : Word) (rest : List Byte) :
    formPtr f (leBytes off ++ (leBytes sg ++ rest)) = .ok (f off sg, rest) := by
  simp [formPtr]

theorem groupRm_encModrm (f : BitVec 3 → Rm (BitVec 3) → Instr) (q : BitVec 3) (m : Rm (BitVec 3))
    (rest : List Byte) (h : m.wf = true) : groupRm f (encModrm q m ++ rest) = .ok (f q m, rest) := by
  simp [groupRm, withModrm_encModrm, h]

theorem groupEbIb_encModrm (f : BitVec 3 → Rm Reg8 → Byte → Instr) (q : BitVec 3) (m : Rm Reg8) (i : Byte)
    (rest : List Byte) (h : m.wf = true) :
    groupEbIb f (encModrm q (m.map Reg8.bits) ++ i :: rest) = .ok (f q m i, rest) := by
  simp [groupEbIb, withModrm_encModrm, h]

theorem groupEvIb_encModrm (f : BitVec 3 → Rm Reg16 → Byte → Instr) (q : BitVec 3) (m : Rm Reg16) (i : Byte)
    (rest : List Byte) (h : m.wf = true) :
    groupEvIb f (encModrm q (m.map Reg16.bits) ++ i :: rest) = .ok (f q m i, rest) := by
  simp [groupEvIb, withModrm_encModrm, h]

theorem groupEvIv_encModrm (f : BitVec 3 → Rm Reg16 → Word → Instr) (q : BitVec 3) (m : Rm Reg16) (i : Word)
    (rest : List Byte) (h : m.wf = true) :
    groupEvIv f (encModrm q (m.map Reg16.bits) ++ (leBytes i ++ rest)) = .ok (f q m i, rest) := by
  simp [groupEvIv, withModrm_encModrm, h]

/-! ## Writing what was read -/

theorem withByte_ok {bs : List Byte} {k : Byte → List Byte → Parsed} {r : Instr × List Byte}
    (h : withByte bs k = .ok r) : ∃ b rest, bs = b :: rest ∧ k b rest = .ok r := by
  cases bs with
  | nil => simp [withByte] at h
  | cons b rest => exact ⟨b, rest, rfl, h⟩

theorem withWord_ok {bs : List Byte} {k : Word → List Byte → Parsed} {r : Instr × List Byte}
    (h : withWord bs k = .ok r) : ∃ v rest, bs = leBytes v ++ rest ∧ k v rest = .ok r := by
  match bs, h with
  | lo :: hi :: rest, h => exact ⟨leWord lo hi, rest, by simp, h⟩
  | [], h => simp [withWord] at h
  | [_], h => simp [withWord] at h

/-- What the addressing decoder accepts is what the encoder writes of the well-formed operand it answers. -/
theorem withModrm_ok {bs : List Byte} {k : BitVec 3 → Rm (BitVec 3) → List Byte → Parsed}
    {r : Instr × List Byte} (h : withModrm bs k = .ok r) :
    ∃ q m rest, m.wf = true ∧ bs = encModrm q m ++ rest ∧ k q m rest = .ok r := by
  obtain ⟨b, rest, rfl, h0⟩ := withByte_ok h
  clear h
  have hb := modrmByte_fields b
  have mod4 : modField b = 0#2 ∨ modField b = 1#2 ∨ modField b = 2#2 ∨ modField b = 3#2 := by
    generalize modField b = x
    revert x
    decide
  rcases mod4 with e | e | e | e <;> simp only [e] at h0 hb
  · by_cases h6 : rmField b = 6#3
    · simp [h6] at h0 hb
      obtain ⟨a, rest, rfl, h⟩ := withWord_ok h0
      exact ⟨_, .mem (.direct a), _, rfl, by simp [encModrm, hb], h⟩
    · refine ⟨regField b, .mem (.base (baseIdx (rmField b))), rest, ?_, by simp [encModrm, hb], ?_⟩
      · generalize rmField b = x at h6
        revert x
        decide
      · simpa [h6] using h0
  · obtain ⟨d, rest, rfl, h⟩ := withByte_ok h0
    exact ⟨_, .mem (.disp8 _ d), _, rfl, by simp [encModrm, hb], h⟩
  · obtain ⟨d, rest, rfl, h⟩ := withWord_ok h0
    exact ⟨_, .mem (.disp16 _ d), _, rfl, by simp [encModrm, hb], h⟩
  · exact ⟨_, .reg _, _, rfl, by simp [encModrm, hb], h0⟩

/-- A ModRM byte and its displacement are one to three bytes. -/
theorem encModrm_length (q : BitVec 3) (m : Rm (BitVec 3)) :
    1 ≤ (encModrm q m).length ∧ (encModrm q m).length ≤ 3 := by
  rcases m with n | (b | ⟨b, d⟩ | ⟨b, d⟩ | a) <;> simp [encModrm, leBytes]

end Sys2Proof
end

