-- ==== Sys2Proof/Laws/State.lean ====
section
/-! SUPPORT. One lemma per field of the state and per named update: what the update leaves, and what it
writes. A later proof cites these (by simp) and never unfolds a record update. -/

namespace Sys2Proof.Machine

/-! ### setR16 -/

@[simp] theorem State.setR16_segs (s : State) (r : Reg16) (v : Word) : (s.setR16 r v).segs = s.segs := rfl
@[simp] theorem State.setR16_ip (s : State) (r : Reg16) (v : Word) : (s.setR16 r v).ip = s.ip := rfl
@[simp] theorem State.setR16_flags (s : State) (r : Reg16) (v : Word) : (s.setR16 r v).flags = s.flags := rfl
@[simp] theorem State.setR16_segOverride (s : State) (r : Reg16) (v : Word) : (s.setR16 r v).segOverride = s.segOverride := rfl
@[simp] theorem State.setR16_rep (s : State) (r : Reg16) (v : Word) : (s.setR16 r v).rep = s.rep := rfl
@[simp] theorem State.setR16_lock (s : State) (r : Reg16) (v : Word) : (s.setR16 r v).lock = s.lock := rfl
@[simp] theorem State.setR16_opCs (s : State) (r : Reg16) (v : Word) : (s.setR16 r v).opCs = s.opCs := rfl
@[simp] theorem State.setR16_opIp (s : State) (r : Reg16) (v : Word) : (s.setR16 r v).opIp = s.opIp := rfl
@[simp] theorem State.setR16_halted (s : State) (r : Reg16) (v : Word) : (s.setR16 r v).halted = s.halted := rfl
@[simp] theorem State.setR16_faultRec (s : State) (r : Reg16) (v : Word) : (s.setR16 r v).faultRec = s.faultRec := rfl
@[simp] theorem State.setR16_irq (s : State) (r : Reg16) (v : Word) : (s.setR16 r v).irq = s.irq := rfl
@[simp] theorem State.setR16_bus (s : State) (r : Reg16) (v : Word) : (s.setR16 r v).bus = s.bus := rfl
@[simp] theorem State.setR16_draws (s : State) (r : Reg16) (v : Word) : (s.setR16 r v).draws = s.draws := rfl
@[simp] theorem State.setR16_params (s : State) (r : Reg16) (v : Word) : (s.setR16 r v).params = s.params := rfl
@[simp] theorem State.setR16_busInstalled (s : State) (r : Reg16) (v : Word) : (s.setR16 r v).busInstalled = s.busInstalled := rfl

/-! ### setR8 -/

@[simp] theorem State.setR8_segs (s : State) (r : Reg8) (v : Byte) : (s.setR8 r v).segs = s.segs := rfl
@[simp] theorem State.setR8_ip (s : State) (r : Reg8) (v : Byte) : (s.setR8 r v).ip = s.ip := rfl
@[simp] theorem State.setR8_flags (s : State) (r : Reg8) (v : Byte) : (s.setR8 r v).flags = s.flags := rfl
@[simp] theorem State.setR8_segOverride (s : State) (r : Reg8) (v : Byte) : (s.setR8 r v).segOverride = s.segOverride := rfl
@[simp] theorem State.setR8_rep (s : State) (r : Reg8) (v : Byte) : (s.setR8 r v).rep = s.rep := rfl
@[simp] theorem State.setR8_lock (s : State) (r : Reg8) (v : Byte) : (s.setR8 r v).lock = s.lock := rfl
@[simp] theorem State.setR8_opCs (s : State) (r : Reg8) (v : Byte) : (s.setR8 r v).opCs = s.opCs := rfl
@[simp] theorem State.setR8_opIp (s : State) (r : Reg8) (v : Byte) : (s.setR8 r v).opIp = s.opIp := rfl
@[simp] theorem State.setR8_halted (s : State) (r : Reg8) (v : Byte) : (s.setR8 r v).halted = s.halted := rfl
@[simp] theorem State.setR8_faultRec (s : State) (r : Reg8) (v : Byte) : (s.setR8 r v).faultRec = s.faultRec := rfl
@[simp] theorem State.setR8_irq (s : State) (r : Reg8) (v : Byte) : (s.setR8 r v).irq = s.irq := rfl
@[simp] theorem State.setR8_bus (s : State) (r : Reg8) (v : Byte) : (s.setR8 r v).bus = s.bus := rfl
@[simp] theorem State.setR8_draws (s : State) (r : Reg8) (v : Byte) : (s.setR8 r v).draws = s.draws := rfl
@[simp] theorem State.setR8_params (s : State) (r : Reg8) (v : Byte) : (s.setR8 r v).params = s.params := rfl
@[simp] theorem State.setR8_busInstalled (s : State) (r : Reg8) (v : Byte) : (s.setR8 r v).busInstalled = s.busInstalled := rfl

/-! ### setSreg -/

@[simp] theorem State.setSreg_regs (s : State) (g : SegReg) (v : Word) : (s.setSreg g v).regs = s.regs := rfl
@[simp] theorem State.setSreg_ip (s : State) (g : SegReg) (v : Word) : (s.setSreg g v).ip = s.ip := rfl
@[simp] theorem State.setSreg_flags (s : State) (g : SegReg) (v : Word) : (s.setSreg g v).flags = s.flags := rfl
@[simp] theorem State.setSreg_segOverride (s : State) (g : SegReg) (v : Word) : (s.setSreg g v).segOverride = s.segOverride := rfl
@[simp] theorem State.setSreg_rep (s : State) (g : SegReg) (v : Word) : (s.setSreg g v).rep = s.rep := rfl
@[simp] theorem State.setSreg_lock (s : State) (g : SegReg) (v : Word) : (s.setSreg g v).lock = s.lock := rfl
@[simp] theorem State.setSreg_opCs (s : State) (g : SegReg) (v : Word) : (s.setSreg g v).opCs = s.opCs := rfl
@[simp] theorem State.setSreg_opIp (s : State) (g : SegReg) (v : Word) : (s.setSreg g v).opIp = s.opIp := rfl
@[simp] theorem State.setSreg_halted (s : State) (g : SegReg) (v : Word) : (s.setSreg g v).halted = s.halted := rfl
@[simp] theorem State.setSreg_faultRec (s : State) (g : SegReg) (v : Word) : (s.setSreg g v).faultRec = s.faultRec := rfl
@[simp] theorem State.setSreg_irq (s : State) (g : SegReg) (v : Word) : (s.setSreg g v).irq = s.irq := rfl
@[simp] theorem State.setSreg_bus (s : State) (g : SegReg) (v : Word) : (s.setSreg g v).bus = s.bus := rfl
@[simp] theorem State.setSreg_draws (s : State) (g : SegReg) (v : Word) : (s.setSreg g v).draws = s.draws := rfl
@[simp] theorem State.setSreg_params (s : State) (g : SegReg) (v : Word) : (s.setSreg g v).params = s.params := rfl
@[simp] theorem State.setSreg_busInstalled (s : State) (g : SegReg) (v : Word) : (s.setSreg g v).busInstalled = s.busInstalled := rfl

/-! ### setIp -/

@[simp] theorem State.setIp_regs (s : State) (v : Word) : (s.setIp v).regs = s.regs := rfl
@[simp] theorem State.setIp_segs (s : State) (v : Word) : (s.setIp v).segs = s.segs := rfl
@[simp] theorem State.setIp_flags (s : State) (v : Word) : (s.setIp v).flags = s.flags := rfl
@[simp] theorem State.setIp_segOverride (s : State) (v : Word) : (s.setIp v).segOverride = s.segOverride := rfl
@[simp] theorem State.setIp_rep (s : State) (v : Word) : (s.setIp v).rep = s.rep := rfl
@[simp] theorem State.setIp_lock (s : State) (v : Word) : (s.setIp v).lock = s.lock := rfl
@[simp] theorem State.setIp_opCs (s : State) (v : Word) : (s.setIp v).opCs = s.opCs := rfl
@[simp] theorem State.setIp_opIp (s : State) (v : Word) : (s.setIp v).opIp = s.opIp := rfl
@[simp] theorem State.setIp_halted (s : State) (v : Word) : (s.setIp v).halted = s.halted := rfl
@[simp] theorem State.setIp_faultRec (s : State) (v : Word) : (s.setIp v).faultRec = s.faultRec := rfl
@[simp] theorem State.setIp_irq (s : State) (v : Word) : (s.setIp v).irq = s.irq := rfl
@[simp] theorem State.setIp_bus (s : State) (v : Word) : (s.setIp v).bus = s.bus := rfl
@[simp] theorem State.setIp_draws (s : State) (v : Word) : (s.setIp v).draws = s.draws := rfl
@[simp] theorem State.setIp_params (s : State) (v : Word) : (s.setIp v).params = s.params := rfl
@[simp] theorem State.setIp_busInstalled (s : State) (v : Word) : (s.setIp v).busInstalled = s.busInstalled := rfl

/-! ### setFlags -/

@[simp] theorem State.setFlags_regs (s : State) (f : Flags) : (s.setFlags f).regs = s.regs := rfl
@[simp] theorem State.setFlags_segs (s : State) (f : Flags) : (s.setFlags f).segs = s.segs := rfl
@[simp] theorem State.setFlags_ip (s : State) (f : Flags) : (s.setFlags f).ip = s.ip := rfl
@[simp] theorem State.setFlags_segOverride (s : State) (f : Flags) : (s.setFlags f).segOverride = s.segOverride := rfl
@[simp] theorem State.setFlags_rep (s : State) (f : Flags) : (s.setFlags f).rep = s.rep := rfl
@[simp] theorem State.setFlags_lock (s : State) (f : Flags) : (s.setFlags f).lock = s.lock := rfl
@[simp] theorem State.setFlags_opCs (s : State) (f : Flags) : (s.setFlags f).opCs = s.opCs := rfl
@[simp] theorem State.setFlags_opIp (s : State) (f : Flags) : (s.setFlags f).opIp = s.opIp := rfl
@[simp] theorem State.setFlags_halted (s : State) (f : Flags) : (s.setFlags f).halted = s.halted := rfl
@[simp] theorem State.setFlags_faultRec (s : State) (f : Flags) : (s.setFlags f).faultRec = s.faultRec := rfl
@[simp] theorem State.setFlags_irq (s : State) (f : Flags) : (s.setFlags f).irq = s.irq := rfl
@[simp] theorem State.setFlags_bus (s : State) (f : Flags) : (s.setFlags f).bus = s.bus := rfl
@[simp] theorem State.setFlags_draws (s : State) (f : Flags) : (s.setFlags f).draws = s.draws := rfl
@[simp] theorem State.setFlags_params (s : State) (f : Flags) : (s.setFlags f).params = s.params := rfl
@[simp] theorem State.setFlags_busInstalled (s : State) (f : Flags) : (s.setFlags f).busInstalled = s.busInstalled := rfl

/-! ### afterReadByte -/

@[simp] theorem State.afterReadByte_regs (s : State) (a : PAddr) : (s.afterReadByte a).regs = s.regs := rfl
@[simp] theorem State.afterReadByte_segs (s : State) (a : PAddr) : (s.afterReadByte a).segs = s.segs := rfl
@[simp] theorem State.afterReadByte_ip (s : State) (a : PAddr) : (s.afterReadByte a).ip = s.ip := rfl
@[simp] theorem State.afterReadByte_flags (s : State) (a : PAddr) : (s.afterReadByte a).flags = s.flags := rfl
@[simp] theorem State.afterReadByte_segOverride (s : State) (a : PAddr) : (s.afterReadByte a).segOverride = s.segOverride := rfl
@[simp] theorem State.afterReadByte_rep (s : State) (a : PAddr) : (s.afterReadByte a).rep = s.rep := rfl
@[simp] theorem State.afterReadByte_lock (s : State) (a : PAddr) : (s.afterReadByte a).lock = s.lock := rfl
@[simp] theorem State.afterReadByte_opCs (s : State) (a : PAddr) : (s.afterReadByte a).opCs = s.opCs := rfl
@[simp] theorem State.afterReadByte_opIp (s : State) (a : PAddr) : (s.afterReadByte a).opIp = s.opIp := rfl
@[simp] theorem State.afterReadByte_halted (s : State) (a : PAddr) : (s.afterReadByte a).halted = s.halted := rfl
@[simp] theorem State.afterReadByte_faultRec (s : State) (a : PAddr) : (s.afterReadByte a).faultRec = s.faultRec := rfl
@[simp] theorem State.afterReadByte_irq (s : State) (a : PAddr) : (s.afterReadByte a).irq = s.irq := rfl
@[simp] theorem State.afterReadByte_draws (s : State) (a : PAddr) : (s.afterReadByte a).draws = s.draws := rfl
@[simp] theorem State.afterReadByte_params (s : State) (a : PAddr) : (s.afterReadByte a).params = s.params := rfl
@[simp] theorem State.afterReadByte_busInstalled (s : State) (a : PAddr) : (s.afterReadByte a).busInstalled = s.busInstalled := rfl
@[simp] theorem State.afterReadByte_bus_windows (s : State) (a : PAddr) : (s.afterReadByte a).bus.windows = s.bus.windows := rfl
@[simp] theorem State.afterReadByte_bus_portIn (s : State) (a : PAddr) : (s.afterReadByte a).bus.portIn = s.bus.portIn := rfl

/-! ### afterReadWord -/

@[simp] theorem State.afterReadWord_regs (s : State) (a : PAddr) : (s.afterReadWord a).regs = s.regs := rfl
@[simp] theorem State.afterReadWord_segs (s : State) (a : PAddr) : (s.afterReadWord a).segs = s.segs := rfl
@[simp] theorem State.afterReadWord_ip (s : State) (a : PAddr) : (s.afterReadWord a).ip = s.ip := rfl
@[simp] theorem State.afterReadWord_flags (s : State) (a : PAddr) : (s.afterReadWord a).flags = s.flags := rfl
@[simp] theorem State.afterReadWord_segOverride (s : State) (a : PAddr) : (s.afterReadWord a).segOverride = s.segOverride := rfl
@[simp] theorem State.afterReadWord_rep (s : State) (a : PAddr) : (s.afterReadWord a).rep = s.rep := rfl
@[simp] theorem State.afterReadWord_lock (s : State) (a : PAddr) : (s.afterReadWord a).lock = s.lock := rfl
@[simp] theorem State.afterReadWord_opCs (s : State) (a : PAddr) : (s.afterReadWord a).opCs = s.opCs := rfl
@[simp] theorem State.afterReadWord_opIp (s : State) (a : PAddr) : (s.afterReadWord a).opIp = s.opIp := rfl
@[simp] theorem State.afterReadWord_halted (s : State) (a : PAddr) : (s.afterReadWord a).halted = s.halted := rfl
@[simp] theorem State.afterReadWord_faultRec (s : State) (a : PAddr) : (s.afterReadWord a).faultRec = s.faultRec := rfl
@[simp] theorem State.afterReadWord_irq (s : State) (a : PAddr) : (s.afterReadWord a).irq = s.irq := rfl
@[simp] theorem State.afterReadWord_draws (s : State) (a : PAddr) : (s.afterReadWord a).draws = s.draws := rfl
@[simp] theorem State.afterReadWord_params (s : State) (a : PAddr) : (s.afterReadWord a).params = s.params := rfl
@[simp] theorem State.afterReadWord_busInstalled (s : State) (a : PAddr) : (s.afterReadWord a).busInstalled = s.busInstalled := rfl
@[simp] theorem State.afterReadWord_bus_windows (s : State) (a : PAddr) : (s.afterReadWord a).bus.windows = s.bus.windows := rfl
@[simp] theorem State.afterReadWord_bus_portIn (s : State) (a : PAddr) : (s.afterReadWord a).bus.portIn = s.bus.portIn := rfl

/-! ### writeByte -/

@[simp] theorem State.writeByte_regs (s : State) (a : PAddr) (v : Byte) : (s.writeByte a v).regs = s.regs := rfl
@[simp] theorem State.writeByte_segs (s : State) (a : PAddr) (v : Byte) : (s.writeByte a v).segs = s.segs := rfl
@[simp] theorem State.writeByte_ip (s : State) (a : PAddr) (v : Byte) : (s.writeByte a v).ip = s.ip := rfl
@[simp] theorem State.writeByte_flags (s : State) (a : PAddr) (v : Byte) : (s.writeByte a v).flags = s.flags := rfl
@[simp] theorem State.writeByte_segOverride (s : State) (a : PAddr) (v : Byte) : (s.writeByte a v).segOverride = s.segOverride := rfl
@[simp] theorem State.writeByte_rep (s : State) (a : PAddr) (v : Byte) : (s.writeByte a v).rep = s.rep := rfl
@[simp] theorem State.writeByte_lock (s : State) (a : PAddr) (v : Byte) : (s.writeByte a v).lock = s.lock := rfl
@[simp] theorem State.writeByte_opCs (s : State) (a : PAddr) (v : Byte) : (s.writeByte a v).opCs = s.opCs := rfl
@[simp] theorem State.writeByte_opIp (s : State) (a : PAddr) (v : Byte) : (s.writeByte a v).opIp = s.opIp := rfl
@[simp] theorem State.writeByte_halted (s : State) (a : PAddr) (v : Byte) : (s.writeByte a v).halted = s.halted := rfl
@[simp] theorem State.writeByte_faultRec (s : State) (a : PAddr) (v : Byte) : (s.writeByte a v).faultRec = s.faultRec := rfl
@[simp] theorem State.writeByte_irq (s : State) (a : PAddr) (v : Byte) : (s.writeByte a v).irq = s.irq := rfl
@[simp] theorem State.writeByte_draws (s : State) (a : PAddr) (v : Byte) : (s.writeByte a v).draws = s.draws := rfl
@[simp] theorem State.writeByte_params (s : State) (a : PAddr) (v : Byte) : (s.writeByte a v).params = s.params := rfl
@[simp] theorem State.writeByte_busInstalled (s : State) (a : PAddr) (v : Byte) : (s.writeByte a v).busInstalled = s.busInstalled := rfl
@[simp] theorem State.writeByte_bus_windows (s : State) (a : PAddr) (v : Byte) : (s.writeByte a v).bus.windows = s.bus.windows := rfl
@[simp] theorem State.writeByte_bus_portIn (s : State) (a : PAddr) (v : Byte) : (s.writeByte a v).bus.portIn = s.bus.portIn := rfl

/-! ### writeWord -/

@[simp] theorem State.writeWord_regs (s : State) (a : PAddr) (v : Word) : (s.writeWord a v).regs = s.regs := rfl
@[simp] theorem State.writeWord_segs (s : State) (a : PAddr) (v : Word) : (s.writeWord a v).segs = s.segs := rfl
@[simp] theorem State.writeWord_ip (s : State) (a : PAddr) (v : Word) : (s.writeWord a v).ip = s.ip := rfl
@[simp] theorem State.writeWord_flags (s : State) (a : PAddr) (v : Word) : (s.writeWord a v).flags = s.flags := rfl
@[simp] theorem State.writeWord_segOverride (s : State) (a : PAddr) (v : Word) : (s.writeWord a v).segOverride = s.segOverride := rfl
@[simp] theorem State.writeWord_rep (s : State) (a : PAddr) (v : Word) : (s.writeWord a v).rep = s.rep := rfl
@[simp] theorem State.writeWord_lock (s : State) (a : PAddr) (v : Word) : (s.writeWord a v).lock = s.lock := rfl
@[simp] theorem State.writeWord_opCs (s : State) (a : PAddr) (v : Word) : (s.writeWord a v).opCs = s.opCs := rfl
@[simp] theorem State.writeWord_opIp (s : State) (a : PAddr) (v : Word) : (s.writeWord a v).opIp = s.opIp := rfl
@[simp] theorem State.writeWord_halted (s : State) (a : PAddr) (v : Word) : (s.writeWord a v).halted = s.halted := rfl
@[simp] theorem State.writeWord_faultRec (s : State) (a : PAddr) (v : Word) : (s.writeWord a v).faultRec = s.faultRec := rfl
@[simp] theorem State.writeWord_irq (s : State) (a : PAddr) (v : Word) : (s.writeWord a v).irq = s.irq := rfl
@[simp] theorem State.writeWord_draws (s : State) (a : PAddr) (v : Word) : (s.writeWord a v).draws = s.draws := rfl
@[simp] theorem State.writeWord_params (s : State) (a : PAddr) (v : Word) : (s.writeWord a v).params = s.params := rfl
@[simp] theorem State.writeWord_busInstalled (s : State) (a : PAddr) (v : Word) : (s.writeWord a v).busInstalled = s.busInstalled := rfl
@[simp] theorem State.writeWord_bus_windows (s : State) (a : PAddr) (v : Word) : (s.writeWord a v).bus.windows = s.bus.windows := rfl
@[simp] theorem State.writeWord_bus_portIn (s : State) (a : PAddr) (v : Word) : (s.writeWord a v).bus.portIn = s.bus.portIn := rfl

/-! ### undefFlag -/

@[simp] theorem State.undefFlag_regs (s : State) (n : FlagName) : (s.undefFlag n).regs = s.regs := by unfold State.undefFlag; split <;> rfl
@[simp] theorem State.undefFlag_segs (s : State) (n : FlagName) : (s.undefFlag n).segs = s.segs := by unfold State.undefFlag; split <;> rfl
@[simp] theorem State.undefFlag_ip (s : State) (n : FlagName) : (s.undefFlag n).ip = s.ip := by unfold State.undefFlag; split <;> rfl
@[simp] theorem State.undefFlag_segOverride (s : State) (n : FlagName) : (s.undefFlag n).segOverride = s.segOverride := by unfold State.undefFlag; split <;> rfl
@[simp] theorem State.undefFlag_rep (s : State) (n : FlagName) : (s.undefFlag n).rep = s.rep := by unfold State.undefFlag; split <;> rfl
@[simp] theorem State.undefFlag_lock (s : State) (n : FlagName) : (s.undefFlag n).lock = s.lock := by unfold State.undefFlag; split <;> rfl
@[simp] theorem State.undefFlag_opCs (s : State) (n : FlagName) : (s.undefFlag n).opCs = s.opCs := by unfold State.undefFlag; split <;> rfl
@[simp] theorem State.undefFlag_opIp (s : State) (n : FlagName) : (s.undefFlag n).opIp = s.opIp := by unfold State.undefFlag; split <;> rfl
@[simp] theorem State.undefFlag_halted (s : State) (n : FlagName) : (s.undefFlag n).halted = s.halted := by unfold State.undefFlag; split <;> rfl
@[simp] theorem State.undefFlag_faultRec (s : State) (n : FlagName) : (s.undefFlag n).faultRec = s.faultRec := by unfold State.undefFlag; split <;> rfl
@[simp] theorem State.undefFlag_irq (s : State) (n : FlagName) : (s.undefFlag n).irq = s.irq := by unfold State.undefFlag; split <;> rfl
@[simp] theorem State.undefFlag_bus (s : State) (n : FlagName) : (s.undefFlag n).bus = s.bus := by unfold State.undefFlag; split <;> rfl
@[simp] theorem State.undefFlag_params (s : State) (n : FlagName) : (s.undefFlag n).params = s.params := by unfold State.undefFlag; split <;> rfl
@[simp] theorem State.undefFlag_busInstalled (s : State) (n : FlagName) : (s.undefFlag n).busInstalled = s.busInstalled := by unfold State.undefFlag; split <;> rfl

/-! ### ioWrite -/

@[simp] theorem State.ioWrite_regs (s : State) (p : Word) (v : Byte) : (s.ioWrite p v).regs = s.regs := rfl
@[simp] theorem State.ioWrite_segs (s : State) (p : Word) (v : Byte) : (s.ioWrite p v).segs = s.segs := rfl
@[simp] theorem State.ioWrite_ip (s : State) (p : Word) (v : Byte) : (s.ioWrite p v).ip = s.ip := rfl
@[simp] theorem State.ioWrite_flags (s : State) (p : Word) (v : Byte) : (s.ioWrite p v).flags = s.flags := rfl
@[simp] theorem State.ioWrite_segOverride (s : State) (p : Word) (v : Byte) : (s.ioWrite p v).segOverride = s.segOverride := rfl
@[simp] theorem State.ioWrite_rep (s : State) (p : Word) (v : Byte) : (s.ioWrite p v).rep = s.rep := rfl
@[simp] theorem State.ioWrite_lock (s : State) (p : Word) (v : Byte) : (s.ioWrite p v).lock = s.lock := rfl
@[simp] theorem State.ioWrite_opCs (s : State) (p : Word) (v : Byte) : (s.ioWrite p v).opCs = s.opCs := rfl
@[simp] theorem State.ioWrite_opIp (s : State) (p : Word) (v : Byte) : (s.ioWrite p v).opIp = s.opIp := rfl
@[simp] theorem State.ioWrite_halted (s : State) (p : Word) (v : Byte) : (s.ioWrite p v).halted = s.halted := rfl
@[simp] theorem State.ioWrite_faultRec (s : State) (p : Word) (v : Byte) : (s.ioWrite p v).faultRec = s.faultRec := rfl
@[simp] theorem State.ioWrite_irq (s : State) (p : Word) (v : Byte) : (s.ioWrite p v).irq = s.irq := rfl
@[simp] theorem State.ioWrite_draws (s : State) (p : Word) (v : Byte) : (s.ioWrite p v).draws = s.draws := rfl
@[simp] theorem State.ioWrite_params (s : State) (p : Word) (v : Byte) : (s.ioWrite p v).params = s.params := rfl
@[simp] theorem State.ioWrite_busInstalled (s : State) (p : Word) (v : Byte) : (s.ioWrite p v).busInstalled = s.busInstalled := rfl
@[simp] theorem State.ioWrite_bus_windows (s : State) (p : Word) (v : Byte) : (s.ioWrite p v).bus.windows = s.bus.windows := rfl
@[simp] theorem State.ioWrite_bus_portIn (s : State) (p : Word) (v : Byte) : (s.ioWrite p v).bus.portIn = s.bus.portIn := rfl

/-! ### afterIoRead -/

@[simp] theorem State.afterIoRead_regs (s : State) (p : Word) : (s.afterIoRead p).regs = s.regs := rfl
@[simp] theorem State.afterIoRead_segs (s : State) (p : Word) : (s.afterIoRead p).segs = s.segs := rfl
@[simp] theorem State.afterIoRead_ip (s : State) (p : Word) : (s.afterIoRead p).ip = s.ip := rfl
@[simp] theorem State.afterIoRead_flags (s : State) (p : Word) : (s.afterIoRead p).flags = s.flags := rfl
@[simp] theorem State.afterIoRead_segOverride (s : State) (p : Word) : (s.afterIoRead p).segOverride = s.segOverride := rfl
@[simp] theorem State.afterIoRead_rep (s : State) (p : Word) : (s.afterIoRead p).rep = s.rep := rfl
@[simp] theorem State.afterIoRead_lock (s : State) (p : Word) : (s.afterIoRead p).lock = s.lock := rfl
@[simp] theorem State.afterIoRead_opCs (s : State) (p : Word) : (s.afterIoRead p).opCs = s.opCs := rfl
@[simp] theorem State.afterIoRead_opIp (s : State) (p : Word) : (s.afterIoRead p).opIp = s.opIp := rfl
@[simp] theorem State.afterIoRead_halted (s : State) (p : Word) : (s.afterIoRead p).halted = s.halted := rfl
@[simp] theorem State.afterIoRead_faultRec (s : State) (p : Word) : (s.afterIoRead p).faultRec = s.faultRec := rfl
@[simp] theorem State.afterIoRead_irq (s : State) (p : Word) : (s.afterIoRead p).irq = s.irq := rfl
@[simp] theorem State.afterIoRead_draws (s : State) (p : Word) : (s.afterIoRead p).draws = s.draws := rfl
@[simp] theorem State.afterIoRead_params (s : State) (p : Word) : (s.afterIoRead p).params = s.params := rfl
@[simp] theorem State.afterIoRead_busInstalled (s : State) (p : Word) : (s.afterIoRead p).busInstalled = s.busInstalled := rfl
@[simp] theorem State.afterIoRead_bus_windows (s : State) (p : Word) : (s.afterIoRead p).bus.windows = s.bus.windows := rfl

/-! ### push -/

@[simp] theorem State.push_segs (s : State) (v : Word) : (s.push v).segs = s.segs := rfl
@[simp] theorem State.push_ip (s : State) (v : Word) : (s.push v).ip = s.ip := rfl
@[simp] theorem State.push_flags (s : State) (v : Word) : (s.push v).flags = s.flags := rfl
@[simp] theorem State.push_segOverride (s : State) (v : Word) : (s.push v).segOverride = s.segOverride := rfl
@[simp] theorem State.push_rep (s : State) (v : Word) : (s.push v).rep = s.rep := rfl
@[simp] theorem State.push_lock (s : State) (v : Word) : (s.push v).lock = s.lock := rfl
@[simp] theorem State.push_opCs (s : State) (v : Word) : (s.push v).opCs = s.opCs := rfl
@[simp] theorem State.push_opIp (s : State) (v : Word) : (s.push v).opIp = s.opIp := rfl
@[simp] theorem State.push_halted (s : State) (v : Word) : (s.push v).halted = s.halted := rfl
@[simp] theorem State.push_faultRec (s : State) (v : Word) : (s.push v).faultRec = s.faultRec := rfl
@[simp] theorem State.push_irq (s : State) (v : Word) : (s.push v).irq = s.irq := rfl
@[simp] theorem State.push_draws (s : State) (v : Word) : (s.push v).draws = s.draws := rfl
@[simp] theorem State.push_params (s : State) (v : Word) : (s.push v).params = s.params := rfl
@[simp] theorem State.push_busInstalled (s : State) (v : Word) : (s.push v).busInstalled = s.busInstalled := rfl
@[simp] theorem State.push_bus_windows (s : State) (v : Word) : (s.push v).bus.windows = s.bus.windows := rfl
@[simp] theorem State.push_bus_portIn (s : State) (v : Word) : (s.push v).bus.portIn = s.bus.portIn := rfl

/-! ### afterPop -/

@[simp] theorem State.afterPop_segs (s : State) : (s.afterPop).segs = s.segs := rfl
@[simp] theorem State.afterPop_ip (s : State) : (s.afterPop).ip = s.ip := rfl
@[simp] theorem State.afterPop_flags (s : State) : (s.afterPop).flags = s.flags := rfl
@[simp] theorem State.afterPop_segOverride (s : State) : (s.afterPop).segOverride = s.segOverride := rfl
@[simp] theorem State.afterPop_rep (s : State) : (s.afterPop).rep = s.rep := rfl
@[simp] theorem State.afterPop_lock (s : State) : (s.afterPop).lock = s.lock := rfl
@[simp] theorem State.afterPop_opCs (s : State) : (s.afterPop).opCs = s.opCs := rfl
@[simp] theorem State.afterPop_opIp (s : State) : (s.afterPop).opIp = s.opIp := rfl
@[simp] theorem State.afterPop_halted (s : State) : (s.afterPop).halted = s.halted := rfl
@[simp] theorem State.afterPop_faultRec (s : State) : (s.afterPop).faultRec = s.faultRec := rfl
@[simp] theorem State.afterPop_irq (s : State) : (s.afterPop).irq = s.irq := rfl
@[simp] theorem State.afterPop_draws (s : State) : (s.afterPop).draws = s.draws := rfl
@[simp] theorem State.afterPop_params (s : State) : (s.afterPop).params = s.params := rfl
@[simp] theorem State.afterPop_busInstalled (s : State) : (s.afterPop).busInstalled = s.busInstalled := rfl
@[simp] theorem State.afterPop_bus_windows (s : State) : (s.afterPop).bus.windows = s.bus.windows := rfl
@[simp] theorem State.afterPop_bus_portIn (s : State) : (s.afterPop).bus.portIn = s.bus.portIn := rfl

/-! ### popIp -/

@[simp] theorem State.popIp_segs (s : State) : (s.popIp).segs = s.segs := by simp [State.popIp]
@[simp] theorem State.popIp_flags (s : State) : (s.popIp).flags = s.flags := by simp [State.popIp]
@[simp] theorem State.popIp_segOverride (s : State) : (s.popIp).segOverride = s.segOverride := by simp [State.popIp]
@[simp] theorem State.popIp_rep (s : State) : (s.popIp).rep = s.rep := by simp [State.popIp]
@[simp] theorem State.popIp_lock (s : State) : (s.popIp).lock = s.lock := by simp [State.popIp]
@[simp] theorem State.popIp_opCs (s : State) : (s.popIp).opCs = s.opCs := by simp [State.popIp]
@[simp] theorem State.popIp_opIp (s : State) : (s.popIp).opIp = s.opIp := by simp [State.popIp]
@[simp] theorem State.popIp_halted (s : State) : (s.popIp).halted = s.halted := by simp [State.popIp]
@[simp] theorem State.popIp_faultRec (s : State) : (s.popIp).faultRec = s.faultRec := by simp [State.popIp]
@[simp] theorem State.popIp_irq (s : State) : (s.popIp).irq = s.irq := by simp [State.popIp]
@[simp] theorem State.popIp_draws (s : State) : (s.popIp).draws = s.draws := by simp [State.popIp]
@[simp] theorem State.popIp_params (s : State) : (s.popIp).params = s.params := by simp [State.popIp]
@[simp] theorem State.popIp_busInstalled (s : State) : (s.popIp).busInstalled = s.busInstalled := by simp [State.popIp]
@[simp] theorem State.popIp_bus_windows (s : State) : (s.popIp).bus.windows = s.bus.windows := by simp [State.popIp]
@[simp] theorem State.popIp_bus_portIn (s : State) : (s.popIp).bus.portIn = s.bus.portIn := by simp [State.popIp]

/-! ### popSreg -/

@[simp] theorem State.popSreg_ip (s : State) (g : SegReg) : (s.popSreg g).ip = s.ip := by simp [State.popSreg]
@[simp] theorem State.popSreg_flags (s : State) (g : SegReg) : (s.popSreg g).flags = s.flags := by simp [State.popSreg]
@[simp] theorem State.popSreg_segOverride (s : State) (g : SegReg) : (s.popSreg g).segOverride = s.segOverride := by simp [State.popSreg]
@[simp] theorem State.popSreg_rep (s : State) (g : SegReg) : (s.popSreg g).rep = s.rep := by simp [State.popSreg]
@[simp] theorem State.popSreg_lock (s : State) (g : SegReg) : (s.popSreg g).lock = s.lock := by simp [State.popSreg]
@[simp] theorem State.popSreg_opCs (s : State) (g : SegReg) : (s.popSreg g).opCs = s.opCs := by simp [State.popSreg]
@[simp] theorem State.popSreg_opIp (s : State) (g : SegReg) : (s.popSreg g).opIp = s.opIp := by simp [State.popSreg]
@[simp] theorem State.popSreg_halted (s : State) (g : SegReg) : (s.popSreg g).halted = s.halted := by simp [State.popSreg]
@[simp] theorem State.popSreg_faultRec (s : State) (g : SegReg) : (s.popSreg g).faultRec = s.faultRec := by simp [State.popSreg]
@[simp] theorem State.popSreg_irq (s : State) (g : SegReg) : (s.popSreg g).irq = s.irq := by simp [State.popSreg]
@[simp] theorem State.popSreg_draws (s : State) (g : SegReg) : (s.popSreg g).draws = s.draws := by simp [State.popSreg]
@[simp] theorem State.popSreg_params (s : State) (g : SegReg) : (s.popSreg g).params = s.params := by simp [State.popSreg]
@[simp] theorem State.popSreg_busInstalled (s : State) (g : SegReg) : (s.popSreg g).busInstalled = s.busInstalled := by simp [State.popSreg]
@[simp] theorem State.popSreg_bus_windows (s : State) (g : SegReg) : (s.popSreg g).bus.windows = s.bus.windows := by simp [State.popSreg]
@[simp] theorem State.popSreg_bus_portIn (s : State) (g : SegReg) : (s.popSreg g).bus.portIn = s.bus.portIn := by simp [State.popSreg]

/-! ### popFlags -/

@[simp] theorem State.popFlags_segs (s : State) : (s.popFlags).segs = s.segs := by simp [State.popFlags]
@[simp] theorem State.popFlags_ip (s : State) : (s.popFlags).ip = s.ip := by simp [State.popFlags]
@[simp] theorem State.popFlags_segOverride (s : State) : (s.popFlags).segOverride = s.segOverride := by simp [State.popFlags]
@[simp] theorem State.popFlags_rep (s : State) : (s.popFlags).rep = s.rep := by simp [State.popFlags]
@[simp] theorem State.popFlags_lock (s : State) : (s.popFlags).lock = s.lock := by simp [State.popFlags]
@[simp] theorem State.popFlags_opCs (s : State) : (s.popFlags).opCs = s.opCs := by simp [State.popFlags]
@[simp] theorem State.popFlags_opIp (s : State) : (s.popFlags).opIp = s.opIp := by simp [State.popFlags]
@[simp] theorem State.popFlags_halted (s : State) : (s.popFlags).halted = s.halted := by simp [State.popFlags]
@[simp] theorem State.popFlags_faultRec (s : State) : (s.popFlags).faultRec = s.faultRec := by simp [State.popFlags]
@[simp] theorem State.popFlags_irq (s : State) : (s.popFlags).irq = s.irq := by simp [State.popFlags]
@[simp] theorem State.popFlags_draws (s : State) : (s.popFlags).draws = s.draws := by simp [State.popFlags]
@[simp] theorem State.popFlags_params (s : State) : (s.popFlags).params = s.params := by simp [State.popFlags]
@[simp] theorem State.popFlags_busInstalled (s : State) : (s.popFlags).busInstalled = s.busInstalled := by simp [State.popFlags]
@[simp] theorem State.popFlags_bus_windows (s : State) : (s.popFlags).bus.windows = s.bus.windows := by simp [State.popFlags]
@[simp] theorem State.popFlags_bus_portIn (s : State) : (s.popFlags).bus.portIn = s.bus.portIn := by simp [State.popFlags]

/-! ### serviceInterrupt -/

@[simp] theorem State.serviceInterrupt_segOverride (s : State) (n : Byte) : (s.serviceInterrupt n).segOverride = s.segOverride := by simp [State.serviceInterrupt]
@[simp] theorem State.serviceInterrupt_rep (s : State) (n : Byte) : (s.serviceInterrupt n).rep = s.rep := by simp [State.serviceInterrupt]
@[simp] theorem State.serviceInterrupt_lock (s : State) (n : Byte) : (s.serviceInterrupt n).lock = s.lock := by simp [State.serviceInterrupt]
@[simp] theorem State.serviceInterrupt_opCs (s : State) (n : Byte) : (s.serviceInterrupt n).opCs = s.opCs := by simp [State.serviceInterrupt]
@[simp] theorem State.serviceInterrupt_opIp (s : State) (n : Byte) : (s.serviceInterrupt n).opIp = s.opIp := by simp [State.serviceInterrupt]
@[simp] theorem State.serviceInterrupt_halted (s : State) (n : Byte) : (s.serviceInterrupt n).halted = s.halted := by simp [State.serviceInterrupt]
@[simp] theorem State.serviceInterrupt_faultRec (s : State) (n : Byte) : (s.serviceInterrupt n).faultRec = s.faultRec := by simp [State.serviceInterrupt]
@[simp] theorem State.serviceInterrupt_irq (s : State) (n : Byte) : (s.serviceInterrupt n).irq = s.irq := by simp [State.serviceInterrupt]
@[simp] theorem State.serviceInterrupt_draws (s : State) (n : Byte) : (s.serviceInterrupt n).draws = s.draws := by simp [State.serviceInterrupt]
@[simp] theorem State.serviceInterrupt_params (s : State) (n : Byte) : (s.serviceInterrupt n).params = s.params := by simp [State.serviceInterrupt]
@[simp] theorem State.serviceInterrupt_busInstalled (s : State) (n : Byte) : (s.serviceInterrupt n).busInstalled = s.busInstalled := by simp [State.serviceInterrupt]
@[simp] theorem State.serviceInterrupt_bus_windows (s : State) (n : Byte) : (s.serviceInterrupt n).bus.windows = s.bus.windows := by simp [State.serviceInterrupt]
@[simp] theorem State.serviceInterrupt_bus_portIn (s : State) (n : Byte) : (s.serviceInterrupt n).bus.portIn = s.bus.portIn := by simp [State.serviceInterrupt]

/-! ### returnFromInterrupt -/

@[simp] theorem State.returnFromInterrupt_segOverride (s : State) : (s.returnFromInterrupt).segOverride = s.segOverride := by simp [State.returnFromInterrupt]
@[simp] theorem State.returnFromInterrupt_rep (s : State) : (s.returnFromInterrupt).rep = s.rep := by simp [State.returnFromInterrupt]
@[simp] theorem State.returnFromInterrupt_lock (s : State) : (s.returnFromInterrupt).lock = s.lock := by simp [State.returnFromInterrupt]
@[simp] theorem State.returnFromInterrupt_opCs (s : State) : (s.returnFromInterrupt).opCs = s.opCs := by simp [State.returnFromInterrupt]
@[simp] theorem State.returnFromInterrupt_opIp (s : State) : (s.returnFromInterrupt).opIp = s.opIp := by simp [State.returnFromInterrupt]
@[simp] theorem State.returnFromInterrupt_halted (s : State) : (s.returnFromInterrupt).halted = s.halted := by simp [State.returnFromInterrupt]
@[simp] theorem State.returnFromInterrupt_faultRec (s : State) : (s.returnFromInterrupt).faultRec = s.faultRec := by simp [State.returnFromInterrupt]
@[simp] theorem State.returnFromInterrupt_irq (s : State) : (s.returnFromInterrupt).irq = s.irq := by simp [State.returnFromInterrupt]
@[simp] theorem State.returnFromInterrupt_draws (s : State) : (s.returnFromInterrupt).draws = s.draws := by simp [State.returnFromInterrupt]
@[simp] theorem State.returnFromInterrupt_params (s : State) : (s.returnFromInterrupt).params = s.params := by simp [State.returnFromInterrupt]
@[simp] theorem State.returnFromInterrupt_busInstalled (s : State) : (s.returnFromInterrupt).busInstalled = s.busInstalled := by simp [State.returnFromInterrupt]
@[simp] theorem State.returnFromInterrupt_bus_windows (s : State) : (s.returnFromInterrupt).bus.windows = s.bus.windows := by simp [State.returnFromInterrupt]
@[simp] theorem State.returnFromInterrupt_bus_portIn (s : State) : (s.returnFromInterrupt).bus.portIn = s.bus.portIn := by simp [State.returnFromInterrupt]

/-! ### raiseInvalid -/

@[simp] theorem State.raiseInvalid_regs (s : State) (b : Byte) (m : Option Byte) : (s.raiseInvalid b m).regs = s.regs := rfl
@[simp] theorem State.raiseInvalid_segs (s : State) (b : Byte) (m : Option Byte) : (s.raiseInvalid b m).segs = s.segs := rfl
@[simp] theorem State.raiseInvalid_ip (s : State) (b : Byte) (m : Option Byte) : (s.raiseInvalid b m).ip = s.ip := rfl
@[simp] theorem State.raiseInvalid_flags (s : State) (b : Byte) (m : Option Byte) : (s.raiseInvalid b m).flags = s.flags := rfl
@[simp] theorem State.raiseInvalid_segOverride (s : State) (b : Byte) (m : Option Byte) : (s.raiseInvalid b m).segOverride = s.segOverride := rfl
@[simp] theorem State.raiseInvalid_rep (s : State) (b : Byte) (m : Option Byte) : (s.raiseInvalid b m).rep = s.rep := rfl
@[simp] theorem State.raiseInvalid_lock (s : State) (b : Byte) (m : Option Byte) : (s.raiseInvalid b m).lock = s.lock := rfl
@[simp] theorem State.raiseInvalid_opCs (s : State) (b : Byte) (m : Option Byte) : (s.raiseInvalid b m).opCs = s.opCs := rfl
@[simp] theorem State.raiseInvalid_opIp (s : State) (b : Byte) (m : Option Byte) : (s.raiseInvalid b m).opIp = s.opIp := rfl
@[simp] theorem State.raiseInvalid_halted (s : State) (b : Byte) (m : Option Byte) : (s.raiseInvalid b m).halted = s.halted := rfl
@[simp] theorem State.raiseInvalid_irq (s : State) (b : Byte) (m : Option Byte) : (s.raiseInvalid b m).irq = s.irq := rfl
@[simp] theorem State.raiseInvalid_bus (s : State) (b : Byte) (m : Option Byte) : (s.raiseInvalid b m).bus = s.bus := rfl
@[simp] theorem State.raiseInvalid_draws (s : State) (b : Byte) (m : Option Byte) : (s.raiseInvalid b m).draws = s.draws := rfl
@[simp] theorem State.raiseInvalid_params (s : State) (b : Byte) (m : Option Byte) : (s.raiseInvalid b m).params = s.params := rfl
@[simp] theorem State.raiseInvalid_busInstalled (s : State) (b : Byte) (m : Option Byte) : (s.raiseInvalid b m).busInstalled = s.busInstalled := rfl

/-! ### raisePrefix -/

@[simp] theorem State.raisePrefix_regs (s : State) (b : Byte) : (s.raisePrefix b).regs = s.regs := rfl
@[simp] theorem State.raisePrefix_segs (s : State) (b : Byte) : (s.raisePrefix b).segs = s.segs := rfl
@[simp] theorem State.raisePrefix_ip (s : State) (b : Byte) : (s.raisePrefix b).ip = s.ip := rfl
@[simp] theorem State.raisePrefix_flags (s : State) (b : Byte) : (s.raisePrefix b).flags = s.flags := rfl
@[simp] theorem State.raisePrefix_segOverride (s : State) (b : Byte) : (s.raisePrefix b).segOverride = s.segOverride := rfl
@[simp] theorem State.raisePrefix_rep (s : State) (b : Byte) : (s.raisePrefix b).rep = s.rep := rfl
@[simp] theorem State.raisePrefix_lock (s : State) (b : Byte) : (s.raisePrefix b).lock = s.lock := rfl
@[simp] theorem State.raisePrefix_opCs (s : State) (b : Byte) : (s.raisePrefix b).opCs = s.opCs := rfl
@[simp] theorem State.raisePrefix_opIp (s : State) (b : Byte) : (s.raisePrefix b).opIp = s.opIp := rfl
@[simp] theorem State.raisePrefix_halted (s : State) (b : Byte) : (s.raisePrefix b).halted = s.halted := rfl
@[simp] theorem State.raisePrefix_irq (s : State) (b : Byte) : (s.raisePrefix b).irq = s.irq := rfl
@[simp] theorem State.raisePrefix_bus (s : State) (b : Byte) : (s.raisePrefix b).bus = s.bus := rfl
@[simp] theorem State.raisePrefix_draws (s : State) (b : Byte) : (s.raisePrefix b).draws = s.draws := rfl
@[simp] theorem State.raisePrefix_params (s : State) (b : Byte) : (s.raisePrefix b).params = s.params := rfl
@[simp] theorem State.raisePrefix_busInstalled (s : State) (b : Byte) : (s.raisePrefix b).busInstalled = s.busInstalled := rfl

/-! ### decodedMem -/

@[simp] theorem State.decodedMem_regs (s : State) (p : MemOp) : (s.decodedMem p).regs = s.regs := by unfold State.decodedMem; split <;> rfl
@[simp] theorem State.decodedMem_segs (s : State) (p : MemOp) : (s.decodedMem p).segs = s.segs := by unfold State.decodedMem; split <;> rfl
@[simp] theorem State.decodedMem_ip (s : State) (p : MemOp) : (s.decodedMem p).ip = s.ip := by unfold State.decodedMem; split <;> rfl
@[simp] theorem State.decodedMem_flags (s : State) (p : MemOp) : (s.decodedMem p).flags = s.flags := by unfold State.decodedMem; split <;> rfl
@[simp] theorem State.decodedMem_rep (s : State) (p : MemOp) : (s.decodedMem p).rep = s.rep := by unfold State.decodedMem; split <;> rfl
@[simp] theorem State.decodedMem_lock (s : State) (p : MemOp) : (s.decodedMem p).lock = s.lock := by unfold State.decodedMem; split <;> rfl
@[simp] theorem State.decodedMem_opCs (s : State) (p : MemOp) : (s.decodedMem p).opCs = s.opCs := by unfold State.decodedMem; split <;> rfl
@[simp] theorem State.decodedMem_opIp (s : State) (p : MemOp) : (s.decodedMem p).opIp = s.opIp := by unfold State.decodedMem; split <;> rfl
@[simp] theorem State.decodedMem_halted (s : State) (p : MemOp) : (s.decodedMem p).halted = s.halted := by unfold State.decodedMem; split <;> rfl
@[simp] theorem State.decodedMem_faultRec (s : State) (p : MemOp) : (s.decodedMem p).faultRec = s.faultRec := by unfold State.decodedMem; split <;> rfl
@[simp] theorem State.decodedMem_irq (s : State) (p : MemOp) : (s.decodedMem p).irq = s.irq := by unfold State.decodedMem; split <;> rfl
@[simp] theorem State.decodedMem_bus (s : State) (p : MemOp) : (s.decodedMem p).bus = s.bus := by unfold State.decodedMem; split <;> rfl
@[simp] theorem State.decodedMem_draws (s : State) (p : MemOp) : (s.decodedMem p).draws = s.draws := by unfold State.decodedMem; split <;> rfl
@[simp] theorem State.decodedMem_params (s : State) (p : MemOp) : (s.decodedMem p).params = s.params := by unfold State.decodedMem; split <;> rfl
@[simp] theorem State.decodedMem_busInstalled (s : State) (p : MemOp) : (s.decodedMem p).busInstalled = s.busInstalled := by unfold State.decodedMem; split <;> rfl

/-! ### decoded -/

@[simp] theorem State.decoded_regs {R : Type} (s : State) (m : Rm R) : (s.decoded m).regs = s.regs := by cases m <;> simp [State.decoded]
@[simp] theorem State.decoded_segs {R : Type} (s : State) (m : Rm R) : (s.decoded m).segs = s.segs := by cases m <;> simp [State.decoded]
@[simp] theorem State.decoded_ip {R : Type} (s : State) (m : Rm R) : (s.decoded m).ip = s.ip := by cases m <;> simp [State.decoded]
@[simp] theorem State.decoded_flags {R : Type} (s : State) (m : Rm R) : (s.decoded m).flags = s.flags := by cases m <;> simp [State.decoded]
@[simp] theorem State.decoded_rep {R : Type} (s : State) (m : Rm R) : (s.decoded m).rep = s.rep := by cases m <;> simp [State.decoded]
@[simp] theorem State.decoded_lock {R : Type} (s : State) (m : Rm R) : (s.decoded m).lock = s.lock := by cases m <;> simp [State.decoded]
@[simp] theorem State.decoded_opCs {R : Type} (s : State) (m : Rm R) : (s.decoded m).opCs = s.opCs := by cases m <;> simp [State.decoded]
@[simp] theorem State.decoded_opIp {R : Type} (s : State) (m : Rm R) : (s.decoded m).opIp = s.opIp := by cases m <;> simp [State.decoded]
@[simp] theorem State.decoded_halted {R : Type} (s : State) (m : Rm R) : (s.decoded m).halted = s.halted := by cases m <;> simp [State.decoded]
@[simp] theorem State.decoded_faultRec {R : Type} (s : State) (m : Rm R) : (s.decoded m).faultRec = s.faultRec := by cases m <;> simp [State.decoded]
@[simp] theorem State.decoded_irq {R : Type} (s : State) (m : Rm R) : (s.decoded m).irq = s.irq := by cases m <;> simp [State.decoded]
@[simp] theorem State.decoded_bus {R : Type} (s : State) (m : Rm R) : (s.decoded m).bus = s.bus := by cases m <;> simp [State.decoded]
@[simp] theorem State.decoded_draws {R : Type} (s : State) (m : Rm R) : (s.decoded m).draws = s.draws := by cases m <;> simp [State.decoded]
@[simp] theorem State.decoded_params {R : Type} (s : State) (m : Rm R) : (s.decoded m).params = s.params := by cases m <;> simp [State.decoded]
@[simp] theorem State.decoded_busInstalled {R : Type} (s : State) (m : Rm R) : (s.decoded m).busInstalled = s.busInstalled := by cases m <;> simp [State.decoded]

/-! ### afterOp8 -/

@[simp] theorem State.afterOp8_regs (s : State) (x : Operand Reg8) : (s.afterOp8 x).regs = s.regs := by cases x <;> rfl
@[simp] theorem State.afterOp8_segs (s : State) (x : Operand Reg8) : (s.afterOp8 x).segs = s.segs := by cases x <;> rfl
@[simp] theorem State.afterOp8_ip (s : State) (x : Operand Reg8) : (s.afterOp8 x).ip = s.ip := by cases x <;> rfl
@[simp] theorem State.afterOp8_flags (s : State) (x : Operand Reg8) : (s.afterOp8 x).flags = s.flags := by cases x <;> rfl
@[simp] theorem State.afterOp8_segOverride (s : State) (x : Operand Reg8) : (s.afterOp8 x).segOverride = s.segOverride := by cases x <;> rfl
@[simp] theorem State.afterOp8_rep (s : State) (x : Operand Reg8) : (s.afterOp8 x).rep = s.rep := by cases x <;> rfl
@[simp] theorem State.afterOp8_lock (s : State) (x : Operand Reg8) : (s.afterOp8 x).lock = s.lock := by cases x <;> rfl
@[simp] theorem State.afterOp8_opCs (s : State) (x : Operand Reg8) : (s.afterOp8 x).opCs = s.opCs := by cases x <;> rfl
@[simp] theorem State.afterOp8_opIp (s : State) (x : Operand Reg8) : (s.afterOp8 x).opIp = s.opIp := by cases x <;> rfl
@[simp] theorem State.afterOp8_halted (s : State) (x : Operand Reg8) : (s.afterOp8 x).halted = s.halted := by cases x <;> rfl
@[simp] theorem State.afterOp8_faultRec (s : State) (x : Operand Reg8) : (s.afterOp8 x).faultRec = s.faultRec := by cases x <;> rfl
@[simp] theorem State.afterOp8_irq (s : State) (x : Operand Reg8) : (s.afterOp8 x).irq = s.irq := by cases x <;> rfl
@[simp] theorem State.afterOp8_draws (s : State) (x : Operand Reg8) : (s.afterOp8 x).draws = s.draws := by cases x <;> rfl
@[simp] theorem State.afterOp8_params (s : State) (x : Operand Reg8) : (s.afterOp8 x).params = s.params := by cases x <;> rfl
@[simp] theorem State.afterOp8_busInstalled (s : State) (x : Operand Reg8) : (s.afterOp8 x).busInstalled = s.busInstalled := by cases x <;> rfl
@[simp] theorem State.afterOp8_bus_windows (s : State) (x : Operand Reg8) : (s.afterOp8 x).bus.windows = s.bus.windows := by cases x <;> rfl
@[simp] theorem State.afterOp8_bus_portIn (s : State) (x : Operand Reg8) : (s.afterOp8 x).bus.portIn = s.bus.portIn := by cases x <;> rfl

/-! ### afterOp16 -/

@[simp] theorem State.afterOp16_regs (s : State) (x : Operand Reg16) : (s.afterOp16 x).regs = s.regs := by cases x <;> rfl
@[simp] theorem State.afterOp16_segs (s : State) (x : Operand Reg16) : (s.afterOp16 x).segs = s.segs := by cases x <;> rfl
@[simp] theorem State.afterOp16_ip (s : State) (x : Operand Reg16) : (s.afterOp16 x).ip = s.ip := by cases x <;> rfl
@[simp] theorem State.afterOp16_flags (s : State) (x : Operand Reg16) : (s.afterOp16 x).flags = s.flags := by cases x <;> rfl
@[simp] theorem State.afterOp16_segOverride (s : State) (x : Operand Reg16) : (s.afterOp16 x).segOverride = s.segOverride := by cases x <;> rfl
@[simp] theorem State.afterOp16_rep (s : State) (x : Operand Reg16) : (s.afterOp16 x).rep = s.rep := by cases x <;> rfl
@[simp] theorem State.afterOp16_lock (s : State) (x : Operand Reg16) : (s.afterOp16 x).lock = s.lock := by cases x <;> rfl
@[simp] theorem State.afterOp16_opCs (s : State) (x : Operand Reg16) : (s.afterOp16 x).opCs = s.opCs := by cases x <;> rfl
@[simp] theorem State.afterOp16_opIp (s : State) (x : Operand Reg16) : (s.afterOp16 x).opIp = s.opIp := by cases x <;> rfl
@[simp] theorem State.afterOp16_halted (s : State) (x : Operand Reg16) : (s.afterOp16 x).halted = s.halted := by cases x <;> rfl
@[simp] theorem State.afterOp16_faultRec (s : State) (x : Operand Reg16) : (s.afterOp16 x).faultRec = s.faultRec := by cases x <;> rfl
@[simp] theorem State.afterOp16_irq (s : State) (x : Operand Reg16) : (s.afterOp16 x).irq = s.irq := by cases x <;> rfl
@[simp] theorem State.afterOp16_draws (s : State) (x : Operand Reg16) : (s.afterOp16 x).draws = s.draws := by cases x <;> rfl
@[simp] theorem State.afterOp16_params (s : State) (x : Operand Reg16) : (s.afterOp16 x).params = s.params := by cases x <;> rfl
@[simp] theorem State.afterOp16_busInstalled (s : State) (x : Operand Reg16) : (s.afterOp16 x).busInstalled = s.busInstalled := by cases x <;> rfl
@[simp] theorem State.afterOp16_bus_windows (s : State) (x : Operand Reg16) : (s.afterOp16 x).bus.windows = s.bus.windows := by cases x <;> rfl
@[simp] theorem State.afterOp16_bus_portIn (s : State) (x : Operand Reg16) : (s.afterOp16 x).bus.portIn = s.bus.portIn := by cases x <;> rfl

/-! ### loaded8 -/

@[simp] theorem State.loaded8_regs (s : State) (m : Rm Reg8) : (s.loaded8 m).regs = s.regs := by simp [State.loaded8]
@[simp] theorem State.loaded8_segs (s : State) (m : Rm Reg8) : (s.loaded8 m).segs = s.segs := by simp [State.loaded8]
@[simp] theorem State.loaded8_ip (s : State) (m : Rm Reg8) : (s.loaded8 m).ip = s.ip := by simp [State.loaded8]
@[simp] theorem State.loaded8_flags (s : State) (m : Rm Reg8) : (s.loaded8 m).flags = s.flags := by simp [State.loaded8]
@[simp] theorem State.loaded8_rep (s : State) (m : Rm Reg8) : (s.loaded8 m).rep = s.rep := by simp [State.loaded8]
@[simp] theorem State.loaded8_lock (s : State) (m : Rm Reg8) : (s.loaded8 m).lock = s.lock := by simp [State.loaded8]
@[simp] theorem State.loaded8_opCs (s : State) (m : Rm Reg8) : (s.loaded8 m).opCs = s.opCs := by simp [State.loaded8]
@[simp] theorem State.loaded8_opIp (s : State) (m : Rm Reg8) : (s.loaded8 m).opIp = s.opIp := by simp [State.loaded8]
@[simp] theorem State.loaded8_halted (s : State) (m : Rm Reg8) : (s.loaded8 m).halted = s.halted := by simp [State.loaded8]
@[simp] theorem State.loaded8_faultRec (s : State) (m : Rm Reg8) : (s.loaded8 m).faultRec = s.faultRec := by simp [State.loaded8]
@[simp] theorem State.loaded8_irq (s : State) (m : Rm Reg8) : (s.loaded8 m).irq = s.irq := by simp [State.loaded8]
@[simp] theorem State.loaded8_draws (s : State) (m : Rm Reg8) : (s.loaded8 m).draws = s.draws := by simp [State.loaded8]
@[simp] theorem State.loaded8_params (s : State) (m : Rm Reg8) : (s.loaded8 m).params = s.params := by simp [State.loaded8]
@[simp] theorem State.loaded8_busInstalled (s : State) (m : Rm Reg8) : (s.loaded8 m).busInstalled = s.busInstalled := by simp [State.loaded8]
@[simp] theorem State.loaded8_bus_windows (s : State) (m : Rm Reg8) : (s.loaded8 m).bus.windows = s.bus.windows := by simp [State.loaded8]
@[simp] theorem State.loaded8_bus_portIn (s : State) (m : Rm Reg8) : (s.loaded8 m).bus.portIn = s.bus.portIn := by simp [State.loaded8]

/-! ### loaded16 -/

@[simp] theorem State.loaded16_regs (s : State) (m : Rm Reg16) : (s.loaded16 m).regs = s.regs := by simp [State.loaded16]
@[simp] theorem State.loaded16_segs (s : State) (m : Rm Reg16) : (s.loaded16 m).segs = s.segs := by simp [State.loaded16]
@[simp] theorem State.loaded16_ip (s : State) (m : Rm Reg16) : (s.loaded16 m).ip = s.ip := by simp [State.loaded16]
@[simp] theorem State.loaded16_flags (s : State) (m : Rm Reg16) : (s.loaded16 m).flags = s.flags := by simp [State.loaded16]
@[simp] theorem State.loaded16_rep (s : State) (m : Rm Reg16) : (s.loaded16 m).rep = s.rep := by simp [State.loaded16]
@[simp] theorem State.loaded16_lock (s : State) (m : Rm Reg16) : (s.loaded16 m).lock = s.lock := by simp [State.loaded16]
@[simp] theorem State.loaded16_opCs (s : State) (m : Rm Reg16) : (s.loaded16 m).opCs = s.opCs := by simp [State.loaded16]
@[simp] theorem State.loaded16_opIp (s : State) (m : Rm Reg16) : (s.loaded16 m).opIp = s.opIp := by simp [State.loaded16]
@[simp] theorem State.loaded16_halted (s : State) (m : Rm Reg16) : (s.loaded16 m).halted = s.halted := by simp [State.loaded16]
@[simp] theorem State.loaded16_faultRec (s : State) (m : Rm Reg16) : (s.loaded16 m).faultRec = s.faultRec := by simp [State.loaded16]
@[simp] theorem State.loaded16_irq (s : State) (m : Rm Reg16) : (s.loaded16 m).irq = s.irq := by simp [State.loaded16]
@[simp] theorem State.loaded16_draws (s : State) (m : Rm Reg16) : (s.loaded16 m).draws = s.draws := by simp [State.loaded16]
@[simp] theorem State.loaded16_params (s : State) (m : Rm Reg16) : (s.loaded16 m).params = s.params := by simp [State.loaded16]
@[simp] theorem State.loaded16_busInstalled (s : State) (m : Rm Reg16) : (s.loaded16 m).busInstalled = s.busInstalled := by simp [State.loaded16]
@[simp] theorem State.loaded16_bus_windows (s : State) (m : Rm Reg16) : (s.loaded16 m).bus.windows = s.bus.windows := by simp [State.loaded16]
@[simp] theorem State.loaded16_bus_portIn (s : State) (m : Rm Reg16) : (s.loaded16 m).bus.portIn = s.bus.portIn := by simp [State.loaded16]

/-! ### afterFar -/

@[simp] theorem State.afterFar_regs (s : State) (ea : Word) : (s.afterFar ea).regs = s.regs := by simp [State.afterFar]
@[simp] theorem State.afterFar_segs (s : State) (ea : Word) : (s.afterFar ea).segs = s.segs := by simp [State.afterFar]
@[simp] theorem State.afterFar_ip (s : State) (ea : Word) : (s.afterFar ea).ip = s.ip := by simp [State.afterFar]
@[simp] theorem State.afterFar_flags (s : State) (ea : Word) : (s.afterFar ea).flags = s.flags := by simp [State.afterFar]
@[simp] theorem State.afterFar_segOverride (s : State) (ea : Word) : (s.afterFar ea).segOverride = s.segOverride := by simp [State.afterFar]
@[simp] theorem State.afterFar_rep (s : State) (ea : Word) : (s.afterFar ea).rep = s.rep := by simp [State.afterFar]
@[simp] theorem State.afterFar_lock (s : State) (ea : Word) : (s.afterFar ea).lock = s.lock := by simp [State.afterFar]
@[simp] theorem State.afterFar_opCs (s : State) (ea : Word) : (s.afterFar ea).opCs = s.opCs := by simp [State.afterFar]
@[simp] theorem State.afterFar_opIp (s : State) (ea : Word) : (s.afterFar ea).opIp = s.opIp := by simp [State.afterFar]
@[simp] theorem State.afterFar_halted (s : State) (ea : Word) : (s.afterFar ea).halted = s.halted := by simp [State.afterFar]
@[simp] theorem State.afterFar_faultRec (s : State) (ea : Word) : (s.afterFar ea).faultRec = s.faultRec := by simp [State.afterFar]
@[simp] theorem State.afterFar_irq (s : State) (ea : Word) : (s.afterFar ea).irq = s.irq := by simp [State.afterFar]
@[simp] theorem State.afterFar_draws (s : State) (ea : Word) : (s.afterFar ea).draws = s.draws := by simp [State.afterFar]
@[simp] theorem State.afterFar_params (s : State) (ea : Word) : (s.afterFar ea).params = s.params := by simp [State.afterFar]
@[simp] theorem State.afterFar_busInstalled (s : State) (ea : Word) : (s.afterFar ea).busInstalled = s.busInstalled := by simp [State.afterFar]
@[simp] theorem State.afterFar_bus_windows (s : State) (ea : Word) : (s.afterFar ea).bus.windows = s.bus.windows := by simp [State.afterFar]
@[simp] theorem State.afterFar_bus_portIn (s : State) (ea : Word) : (s.afterFar ea).bus.portIn = s.bus.portIn := by simp [State.afterFar]

/-! ### afterImm8 -/

@[simp] theorem State.afterImm8_regs (s : State) : (s.afterImm8).regs = s.regs := by simp [State.afterImm8]
@[simp] theorem State.afterImm8_segs (s : State) : (s.afterImm8).segs = s.segs := by simp [State.afterImm8]
@[simp] theorem State.afterImm8_ip (s : State) : (s.afterImm8).ip = s.ip := by simp [State.afterImm8]
@[simp] theorem State.afterImm8_flags (s : State) : (s.afterImm8).flags = s.flags := by simp [State.afterImm8]
@[simp] theorem State.afterImm8_segOverride (s : State) : (s.afterImm8).segOverride = s.segOverride := by simp [State.afterImm8]
@[simp] theorem State.afterImm8_rep (s : State) : (s.afterImm8).rep = s.rep := by simp [State.afterImm8]
@[simp] theorem State.afterImm8_lock (s : State) : (s.afterImm8).lock = s.lock := by simp [State.afterImm8]
@[simp] theorem State.afterImm8_opCs (s : State) : (s.afterImm8).opCs = s.opCs := by simp [State.afterImm8]
@[simp] theorem State.afterImm8_opIp (s : State) : (s.afterImm8).opIp = s.opIp := by simp [State.afterImm8]
@[simp] theorem State.afterImm8_halted (s : State) : (s.afterImm8).halted = s.halted := by simp [State.afterImm8]
@[simp] theorem State.afterImm8_faultRec (s : State) : (s.afterImm8).faultRec = s.faultRec := by simp [State.afterImm8]
@[simp] theorem State.afterImm8_irq (s : State) : (s.afterImm8).irq = s.irq := by simp [State.afterImm8]
@[simp] theorem State.afterImm8_draws (s : State) : (s.afterImm8).draws = s.draws := by simp [State.afterImm8]
@[simp] theorem State.afterImm8_params (s : State) : (s.afterImm8).params = s.params := by simp [State.afterImm8]
@[simp] theorem State.afterImm8_busInstalled (s : State) : (s.afterImm8).busInstalled = s.busInstalled := by simp [State.afterImm8]
@[simp] theorem State.afterImm8_bus_windows (s : State) : (s.afterImm8).bus.windows = s.bus.windows := by simp [State.afterImm8]
@[simp] theorem State.afterImm8_bus_portIn (s : State) : (s.afterImm8).bus.portIn = s.bus.portIn := by simp [State.afterImm8]

/-! ### afterImm16 -/

@[simp] theorem State.afterImm16_regs (s : State) : (s.afterImm16).regs = s.regs := by simp [State.afterImm16]
@[simp] theorem State.afterImm16_segs (s : State) : (s.afterImm16).segs = s.segs := by simp [State.afterImm16]
@[simp] theorem State.afterImm16_ip (s : State) : (s.afterImm16).ip = s.ip := by simp [State.afterImm16]
@[simp] theorem State.afterImm16_flags (s : State) : (s.afterImm16).flags = s.flags := by simp [State.afterImm16]
@[simp] theorem State.afterImm16_segOverride (s : State) : (s.afterImm16).segOverride = s.segOverride := by simp [State.afterImm16]
@[simp] theorem State.afterImm16_rep (s : State) : (s.afterImm16).rep = s.rep := by simp [State.afterImm16]
@[simp] theorem State.afterImm16_lock (s : State) : (s.afterImm16).lock = s.lock := by simp [State.afterImm16]
@[simp] theorem State.afterImm16_opCs (s : State) : (s.afterImm16).opCs = s.opCs := by simp [State.afterImm16]
@[simp] theorem State.afterImm16_opIp (s : State) : (s.afterImm16).opIp = s.opIp := by simp [State.afterImm16]
@[simp] theorem State.afterImm16_halted (s : State) : (s.afterImm16).halted = s.halted := by simp [State.afterImm16]
@[simp] theorem State.afterImm16_faultRec (s : State) : (s.afterImm16).faultRec = s.faultRec := by simp [State.afterImm16]
@[simp] theorem State.afterImm16_irq (s : State) : (s.afterImm16).irq = s.irq := by simp [State.afterImm16]
@[simp] theorem State.afterImm16_draws (s : State) : (s.afterImm16).draws = s.draws := by simp [State.afterImm16]
@[simp] theorem State.afterImm16_params (s : State) : (s.afterImm16).params = s.params := by simp [State.afterImm16]
@[simp] theorem State.afterImm16_busInstalled (s : State) : (s.afterImm16).busInstalled = s.busInstalled := by simp [State.afterImm16]
@[simp] theorem State.afterImm16_bus_windows (s : State) : (s.afterImm16).bus.windows = s.bus.windows := by simp [State.afterImm16]
@[simp] theorem State.afterImm16_bus_portIn (s : State) : (s.afterImm16).bus.portIn = s.bus.portIn := by simp [State.afterImm16]

/-! ### clearPrefixes -/

@[simp] theorem State.clearPrefixes_regs (s : State) : (s.clearPrefixes).regs = s.regs := rfl
@[simp] theorem State.clearPrefixes_segs (s : State) : (s.clearPrefixes).segs = s.segs := rfl
@[simp] theorem State.clearPrefixes_ip (s : State) : (s.clearPrefixes).ip = s.ip := rfl
@[simp] theorem State.clearPrefixes_flags (s : State) : (s.clearPrefixes).flags = s.flags := rfl
@[simp] theorem State.clearPrefixes_opCs (s : State) : (s.clearPrefixes).opCs = s.opCs := rfl
@[simp] theorem State.clearPrefixes_opIp (s : State) : (s.clearPrefixes).opIp = s.opIp := rfl
@[simp] theorem State.clearPrefixes_halted (s : State) : (s.clearPrefixes).halted = s.halted := rfl
@[simp] theorem State.clearPrefixes_faultRec (s : State) : (s.clearPrefixes).faultRec = s.faultRec := rfl
@[simp] theorem State.clearPrefixes_irq (s : State) : (s.clearPrefixes).irq = s.irq := rfl
@[simp] theorem State.clearPrefixes_bus (s : State) : (s.clearPrefixes).bus = s.bus := rfl
@[simp] theorem State.clearPrefixes_draws (s : State) : (s.clearPrefixes).draws = s.draws := rfl
@[simp] theorem State.clearPrefixes_params (s : State) : (s.clearPrefixes).params = s.params := rfl
@[simp] theorem State.clearPrefixes_busInstalled (s : State) : (s.clearPrefixes).busInstalled = s.busInstalled := rfl

/-! ### beginInstr -/

@[simp] theorem State.beginInstr_regs (s : State) : (s.beginInstr).regs = s.regs := rfl
@[simp] theorem State.beginInstr_segs (s : State) : (s.beginInstr).segs = s.segs := rfl
@[simp] theorem State.beginInstr_ip (s : State) : (s.beginInstr).ip = s.ip := rfl
@[simp] theorem State.beginInstr_flags (s : State) : (s.beginInstr).flags = s.flags := rfl
@[simp] theorem State.beginInstr_segOverride (s : State) : (s.beginInstr).segOverride = s.segOverride := rfl
@[simp] theorem State.beginInstr_rep (s : State) : (s.beginInstr).rep = s.rep := rfl
@[simp] theorem State.beginInstr_lock (s : State) : (s.beginInstr).lock = s.lock := rfl
@[simp] theorem State.beginInstr_halted (s : State) : (s.beginInstr).halted = s.halted := rfl
@[simp] theorem State.beginInstr_faultRec (s : State) : (s.beginInstr).faultRec = s.faultRec := rfl
@[simp] theorem State.beginInstr_irq (s : State) : (s.beginInstr).irq = s.irq := rfl
@[simp] theorem State.beginInstr_bus (s : State) : (s.beginInstr).bus = s.bus := rfl
@[simp] theorem State.beginInstr_draws (s : State) : (s.beginInstr).draws = s.draws := rfl
@[simp] theorem State.beginInstr_params (s : State) : (s.beginInstr).params = s.params := rfl
@[simp] theorem State.beginInstr_busInstalled (s : State) : (s.beginInstr).busInstalled = s.busInstalled := rfl

/-! ### afterFetchByte -/

@[simp] theorem State.afterFetchByte_regs (s : State) : (s.afterFetchByte).regs = s.regs := rfl
@[simp] theorem State.afterFetchByte_segs (s : State) : (s.afterFetchByte).segs = s.segs := rfl
@[simp] theorem State.afterFetchByte_flags (s : State) : (s.afterFetchByte).flags = s.flags := rfl
@[simp] theorem State.afterFetchByte_segOverride (s : State) : (s.afterFetchByte).segOverride = s.segOverride := rfl
@[simp] theorem State.afterFetchByte_rep (s : State) : (s.afterFetchByte).rep = s.rep := rfl
@[simp] theorem State.afterFetchByte_lock (s : State) : (s.afterFetchByte).lock = s.lock := rfl
@[simp] theorem State.afterFetchByte_opCs (s : State) : (s.afterFetchByte).opCs = s.opCs := rfl
@[simp] theorem State.afterFetchByte_opIp (s : State) : (s.afterFetchByte).opIp = s.opIp := rfl
@[simp] theorem State.afterFetchByte_halted (s : State) : (s.afterFetchByte).halted = s.halted := rfl
@[simp] theorem State.afterFetchByte_faultRec (s : State) : (s.afterFetchByte).faultRec = s.faultRec := rfl
@[simp] theorem State.afterFetchByte_irq (s : State) : (s.afterFetchByte).irq = s.irq := rfl
@[simp] theorem State.afterFetchByte_draws (s : State) : (s.afterFetchByte).draws = s.draws := rfl
@[simp] theorem State.afterFetchByte_params (s : State) : (s.afterFetchByte).params = s.params := rfl
@[simp] theorem State.afterFetchByte_busInstalled (s : State) : (s.afterFetchByte).busInstalled = s.busInstalled := rfl
@[simp] theorem State.afterFetchByte_bus_windows (s : State) : (s.afterFetchByte).bus.windows = s.bus.windows := rfl
@[simp] theorem State.afterFetchByte_bus_portIn (s : State) : (s.afterFetchByte).bus.portIn = s.bus.portIn := rfl

/-! ### The field an update writes -/

@[simp] theorem State.setR16_regs_self (s : State) (r : Reg16) (v : Word) :
    (s.setR16 r v).regs = s.regs.set r v := rfl
@[simp] theorem State.setR8_regs_self (s : State) (r : Reg8) (v : Byte) :
    (s.setR8 r v).regs = s.regs.set8 r v := rfl
@[simp] theorem State.setSreg_segs_self (s : State) (g : SegReg) (v : Word) :
    (s.setSreg g v).segs = s.segs.set g v := rfl
@[simp] theorem State.setIp_ip_self (s : State) (v : Word) : (s.setIp v).ip = v := rfl
@[simp] theorem State.setFlags_flags_self (s : State) (f : Flags) : (s.setFlags f).flags = f := rfl
@[simp] theorem State.afterReadByte_calls_self (s : State) (a : PAddr) :
    (s.afterReadByte a).bus.calls = .readByte a (s.readByte a) :: s.bus.calls := rfl
@[simp] theorem State.afterReadWord_calls_self (s : State) (a : PAddr) :
    (s.afterReadWord a).bus.calls = .readWord a (s.readWord a) :: s.bus.calls := rfl
@[simp] theorem State.writeByte_calls_self (s : State) (a : PAddr) (v : Byte) :
    (s.writeByte a v).bus.calls = .writeByte a v :: s.bus.calls := rfl
@[simp] theorem State.writeWord_calls_self (s : State) (a : PAddr) (v : Word) :
    (s.writeWord a v).bus.calls = .writeWord a v :: s.bus.calls := rfl
@[simp] theorem State.afterIoRead_calls_self (s : State) (p : Word) :
    (s.afterIoRead p).bus.calls = .ioRead p s.portAnswer :: s.bus.calls := rfl
@[simp] theorem State.ioWrite_calls_self (s : State) (p : Word) (v : Byte) :
    (s.ioWrite p v).bus.calls = .ioWrite p v :: s.bus.calls := rfl
@[simp] theorem State.afterFetchByte_ip_self (s : State) : s.afterFetchByte.ip = s.ip + 1 := rfl
@[simp] theorem State.beginInstr_opIp_self (s : State) : s.beginInstr.opIp = s.ip := rfl
@[simp] theorem State.beginInstr_opCs_self (s : State) : s.beginInstr.opCs = s.sreg .cs := rfl
@[simp] theorem State.raiseInvalid_faultRec_self (s : State) (b : Byte) (m : Option Byte) :
    (s.raiseInvalid b m).faultRec = some ⟨.invalidOpcode, b, m, s.opCs, s.opIp⟩ := rfl
@[simp] theorem State.raisePrefix_faultRec_self (s : State) (b : Byte) :
    (s.raisePrefix b).faultRec = some ⟨.unsupportedPrefixCombination, b, none, s.opCs, s.opIp⟩ := rfl

/-! ### Accessors over updates that leave their field -/

@[simp] theorem State.setR16_sreg (s : State) (r : Reg16) (v : Word) (k : SegReg) : (s.setR16 r v).sreg k = s.sreg k := rfl
@[simp] theorem State.setR16_kindAt (s : State) (r : Reg16) (v : Word) (k : PAddr) : (s.setR16 r v).kindAt k = s.kindAt k := rfl
@[simp] theorem State.setR16_readByte (s : State) (r : Reg16) (v : Word) (k : PAddr) : (s.setR16 r v).readByte k = s.readByte k := rfl
@[simp] theorem State.setR16_memByte (s : State) (r : Reg16) (v : Word) (k : PAddr) : (s.setR16 r v).memByte k = s.memByte k := rfl
@[simp] theorem State.setR16_readWord (s : State) (r : Reg16) (v : Word) (k : PAddr) : (s.setR16 r v).readWord k = s.readWord k := rfl
@[simp] theorem State.setR8_sreg (s : State) (r : Reg8) (v : Byte) (k : SegReg) : (s.setR8 r v).sreg k = s.sreg k := rfl
@[simp] theorem State.setR8_kindAt (s : State) (r : Reg8) (v : Byte) (k : PAddr) : (s.setR8 r v).kindAt k = s.kindAt k := rfl
@[simp] theorem State.setR8_readByte (s : State) (r : Reg8) (v : Byte) (k : PAddr) : (s.setR8 r v).readByte k = s.readByte k := rfl
@[simp] theorem State.setR8_memByte (s : State) (r : Reg8) (v : Byte) (k : PAddr) : (s.setR8 r v).memByte k = s.memByte k := rfl
@[simp] theorem State.setR8_readWord (s : State) (r : Reg8) (v : Byte) (k : PAddr) : (s.setR8 r v).readWord k = s.readWord k := rfl
@[simp] theorem State.setSreg_r16 (s : State) (g : SegReg) (v : Word) (q : Reg16) : (s.setSreg g v).r16 q = s.r16 q := rfl
@[simp] theorem State.setSreg_r8 (s : State) (g : SegReg) (v : Word) (q : Reg8) : (s.setSreg g v).r8 q = s.r8 q := rfl
@[simp] theorem State.setSreg_kindAt (s : State) (g : SegReg) (v : Word) (k : PAddr) : (s.setSreg g v).kindAt k = s.kindAt k := rfl
@[simp] theorem State.setSreg_readByte (s : State) (g : SegReg) (v : Word) (k : PAddr) : (s.setSreg g v).readByte k = s.readByte k := rfl
@[simp] theorem State.setSreg_memByte (s : State) (g : SegReg) (v : Word) (k : PAddr) : (s.setSreg g v).memByte k = s.memByte k := rfl
@[simp] theorem State.setSreg_readWord (s : State) (g : SegReg) (v : Word) (k : PAddr) : (s.setSreg g v).readWord k = s.readWord k := rfl
@[simp] theorem State.setIp_r16 (s : State) (v : Word) (q : Reg16) : (s.setIp v).r16 q = s.r16 q := rfl
@[simp] theorem State.setIp_r8 (s : State) (v : Word) (q : Reg8) : (s.setIp v).r8 q = s.r8 q := rfl
@[simp] theorem State.setIp_sreg (s : State) (v : Word) (k : SegReg) : (s.setIp v).sreg k = s.sreg k := rfl
@[simp] theorem State.setIp_kindAt (s : State) (v : Word) (k : PAddr) : (s.setIp v).kindAt k = s.kindAt k := rfl
@[simp] theorem State.setIp_readByte (s : State) (v : Word) (k : PAddr) : (s.setIp v).readByte k = s.readByte k := rfl
@[simp] theorem State.setIp_memByte (s : State) (v : Word) (k : PAddr) : (s.setIp v).memByte k = s.memByte k := rfl
@[simp] theorem State.setIp_readWord (s : State) (v : Word) (k : PAddr) : (s.setIp v).readWord k = s.readWord k := rfl
@[simp] theorem State.setFlags_r16 (s : State) (f : Flags) (q : Reg16) : (s.setFlags f).r16 q = s.r16 q := rfl
@[simp] theorem State.setFlags_r8 (s : State) (f : Flags) (q : Reg8) : (s.setFlags f).r8 q = s.r8 q := rfl
@[simp] theorem State.setFlags_sreg (s : State) (f : Flags) (k : SegReg) : (s.setFlags f).sreg k = s.sreg k := rfl
@[simp] theorem State.setFlags_kindAt (s : State) (f : Flags) (k : PAddr) : (s.setFlags f).kindAt k = s.kindAt k := rfl
@[simp] theorem State.setFlags_readByte (s : State) (f : Flags) (k : PAddr) : (s.setFlags f).readByte k = s.readByte k := rfl
@[simp] theorem State.setFlags_memByte (s : State) (f : Flags) (k : PAddr) : (s.setFlags f).memByte k = s.memByte k := rfl
@[simp] theorem State.setFlags_readWord (s : State) (f : Flags) (k : PAddr) : (s.setFlags f).readWord k = s.readWord k := rfl
@[simp] theorem State.afterReadByte_r16 (s : State) (a : PAddr) (q : Reg16) : (s.afterReadByte a).r16 q = s.r16 q := rfl
@[simp] theorem State.afterReadByte_r8 (s : State) (a : PAddr) (q : Reg8) : (s.afterReadByte a).r8 q = s.r8 q := rfl
@[simp] theorem State.afterReadByte_sreg (s : State) (a : PAddr) (k : SegReg) : (s.afterReadByte a).sreg k = s.sreg k := rfl
@[simp] theorem State.afterReadByte_kindAt (s : State) (a : PAddr) (k : PAddr) : (s.afterReadByte a).kindAt k = s.kindAt k := rfl
@[simp] theorem State.afterReadByte_memByte (s : State) (a : PAddr) (k : PAddr) : (s.afterReadByte a).memByte k = s.memByte k := rfl
@[simp] theorem State.afterReadWord_r16 (s : State) (a : PAddr) (q : Reg16) : (s.afterReadWord a).r16 q = s.r16 q := rfl
@[simp] theorem State.afterReadWord_r8 (s : State) (a : PAddr) (q : Reg8) : (s.afterReadWord a).r8 q = s.r8 q := rfl
@[simp] theorem State.afterReadWord_sreg (s : State) (a : PAddr) (k : SegReg) : (s.afterReadWord a).sreg k = s.sreg k := rfl
@[simp] theorem State.afterReadWord_kindAt (s : State) (a : PAddr) (k : PAddr) : (s.afterReadWord a).kindAt k = s.kindAt k := rfl
@[simp] theorem State.afterReadWord_memByte (s : State) (a : PAddr) (k : PAddr) : (s.afterReadWord a).memByte k = s.memByte k := rfl
@[simp] theorem State.writeByte_r16 (s : State) (a : PAddr) (v : Byte) (q : Reg16) : (s.writeByte a v).r16 q = s.r16 q := rfl
@[simp] theorem State.writeByte_r8 (s : State) (a : PAddr) (v : Byte) (q : Reg8) : (s.writeByte a v).r8 q = s.r8 q := rfl
@[simp] theorem State.writeByte_sreg (s : State) (a : PAddr) (v : Byte) (k : SegReg) : (s.writeByte a v).sreg k = s.sreg k := rfl
@[simp] theorem State.writeByte_kindAt (s : State) (a : PAddr) (v : Byte) (k : PAddr) : (s.writeByte a v).kindAt k = s.kindAt k := rfl
@[simp] theorem State.writeWord_r16 (s : State) (a : PAddr) (v : Word) (q : Reg16) : (s.writeWord a v).r16 q = s.r16 q := rfl
@[simp] theorem State.writeWord_r8 (s : State) (a : PAddr) (v : Word) (q : Reg8) : (s.writeWord a v).r8 q = s.r8 q := rfl
@[simp] theorem State.writeWord_sreg (s : State) (a : PAddr) (v : Word) (k : SegReg) : (s.writeWord a v).sreg k = s.sreg k := rfl
@[simp] theorem State.writeWord_kindAt (s : State) (a : PAddr) (v : Word) (k : PAddr) : (s.writeWord a v).kindAt k = s.kindAt k := rfl
@[simp] theorem State.undefFlag_r16 (s : State) (n : FlagName) (q : Reg16) : (s.undefFlag n).r16 q = s.r16 q := by simp [State.r16]
@[simp] theorem State.undefFlag_r8 (s : State) (n : FlagName) (q : Reg8) : (s.undefFlag n).r8 q = s.r8 q := by simp [State.r8]
@[simp] theorem State.undefFlag_sreg (s : State) (n : FlagName) (k : SegReg) : (s.undefFlag n).sreg k = s.sreg k := by simp [State.sreg]
@[simp] theorem State.undefFlag_kindAt (s : State) (n : FlagName) (k : PAddr) : (s.undefFlag n).kindAt k = s.kindAt k := by simp [State.kindAt]
@[simp] theorem State.undefFlag_readByte (s : State) (n : FlagName) (k : PAddr) : (s.undefFlag n).readByte k = s.readByte k := by simp [State.readByte]
@[simp] theorem State.undefFlag_memByte (s : State) (n : FlagName) (k : PAddr) : (s.undefFlag n).memByte k = s.memByte k := by simp [State.memByte]
@[simp] theorem State.undefFlag_readWord (s : State) (n : FlagName) (k : PAddr) : (s.undefFlag n).readWord k = s.readWord k := by simp [State.readWord]
@[simp] theorem State.ioWrite_r16 (s : State) (p : Word) (v : Byte) (q : Reg16) : (s.ioWrite p v).r16 q = s.r16 q := rfl
@[simp] theorem State.ioWrite_r8 (s : State) (p : Word) (v : Byte) (q : Reg8) : (s.ioWrite p v).r8 q = s.r8 q := rfl
@[simp] theorem State.ioWrite_sreg (s : State) (p : Word) (v : Byte) (k : SegReg) : (s.ioWrite p v).sreg k = s.sreg k := rfl
@[simp] theorem State.ioWrite_kindAt (s : State) (p : Word) (v : Byte) (k : PAddr) : (s.ioWrite p v).kindAt k = s.kindAt k := rfl
@[simp] theorem State.ioWrite_memByte (s : State) (p : Word) (v : Byte) (k : PAddr) : (s.ioWrite p v).memByte k = s.memByte k := rfl
@[simp] theorem State.afterIoRead_r16 (s : State) (p : Word) (q : Reg16) : (s.afterIoRead p).r16 q = s.r16 q := rfl
@[simp] theorem State.afterIoRead_r8 (s : State) (p : Word) (q : Reg8) : (s.afterIoRead p).r8 q = s.r8 q := rfl
@[simp] theorem State.afterIoRead_sreg (s : State) (p : Word) (k : SegReg) : (s.afterIoRead p).sreg k = s.sreg k := rfl
@[simp] theorem State.afterIoRead_kindAt (s : State) (p : Word) (k : PAddr) : (s.afterIoRead p).kindAt k = s.kindAt k := rfl
@[simp] theorem State.afterIoRead_memByte (s : State) (p : Word) (k : PAddr) : (s.afterIoRead p).memByte k = s.memByte k := rfl
@[simp] theorem State.push_sreg (s : State) (v : Word) (k : SegReg) : (s.push v).sreg k = s.sreg k := rfl
@[simp] theorem State.push_kindAt (s : State) (v : Word) (k : PAddr) : (s.push v).kindAt k = s.kindAt k := rfl
@[simp] theorem State.afterPop_sreg (s : State) (k : SegReg) : (s.afterPop).sreg k = s.sreg k := rfl
@[simp] theorem State.afterPop_kindAt (s : State) (k : PAddr) : (s.afterPop).kindAt k = s.kindAt k := rfl
@[simp] theorem State.afterPop_memByte (s : State) (k : PAddr) : (s.afterPop).memByte k = s.memByte k := rfl
@[simp] theorem State.popIp_sreg (s : State) (k : SegReg) : (s.popIp).sreg k = s.sreg k := by simp [State.popIp]
@[simp] theorem State.popIp_kindAt (s : State) (k : PAddr) : (s.popIp).kindAt k = s.kindAt k := by simp [State.popIp]
@[simp] theorem State.popIp_memByte (s : State) (k : PAddr) : (s.popIp).memByte k = s.memByte k := by simp [State.popIp]
@[simp] theorem State.popSreg_kindAt (s : State) (g : SegReg) (k : PAddr) : (s.popSreg g).kindAt k = s.kindAt k := by simp [State.popSreg]
@[simp] theorem State.popSreg_memByte (s : State) (g : SegReg) (k : PAddr) : (s.popSreg g).memByte k = s.memByte k := by simp [State.popSreg]
@[simp] theorem State.popFlags_sreg (s : State) (k : SegReg) : (s.popFlags).sreg k = s.sreg k := by simp [State.popFlags]
@[simp] theorem State.popFlags_kindAt (s : State) (k : PAddr) : (s.popFlags).kindAt k = s.kindAt k := by simp [State.popFlags]
@[simp] theorem State.popFlags_memByte (s : State) (k : PAddr) : (s.popFlags).memByte k = s.memByte k := by simp [State.popFlags]
@[simp] theorem State.serviceInterrupt_kindAt (s : State) (n : Byte) (k : PAddr) : (s.serviceInterrupt n).kindAt k = s.kindAt k := by simp [State.serviceInterrupt]
@[simp] theorem State.returnFromInterrupt_kindAt (s : State) (k : PAddr) : (s.returnFromInterrupt).kindAt k = s.kindAt k := by simp [State.returnFromInterrupt]
@[simp] theorem State.returnFromInterrupt_memByte (s : State) (k : PAddr) : (s.returnFromInterrupt).memByte k = s.memByte k := by simp [State.returnFromInterrupt]
@[simp] theorem State.raiseInvalid_r16 (s : State) (b : Byte) (m : Option Byte) (q : Reg16) : (s.raiseInvalid b m).r16 q = s.r16 q := rfl
@[simp] theorem State.raiseInvalid_r8 (s : State) (b : Byte) (m : Option Byte) (q : Reg8) : (s.raiseInvalid b m).r8 q = s.r8 q := rfl
@[simp] theorem State.raiseInvalid_sreg (s : State) (b : Byte) (m : Option Byte) (k : SegReg) : (s.raiseInvalid b m).sreg k = s.sreg k := rfl
@[simp] theorem State.raiseInvalid_kindAt (s : State) (b : Byte) (m : Option Byte) (k : PAddr) : (s.raiseInvalid b m).kindAt k = s.kindAt k := rfl
@[simp] theorem State.raiseInvalid_readByte (s : State) (b : Byte) (m : Option Byte) (k : PAddr) : (s.raiseInvalid b m).readByte k = s.readByte k := rfl
@[simp] theorem State.raiseInvalid_memByte (s : State) (b : Byte) (m : Option Byte) (k : PAddr) : (s.raiseInvalid b m).memByte k = s.memByte k := rfl
@[simp] theorem State.raiseInvalid_readWord (s : State) (b : Byte) (m : Option Byte) (k : PAddr) : (s.raiseInvalid b m).readWord k = s.readWord k := rfl
@[simp] theorem State.raisePrefix_r16 (s : State) (b : Byte) (q : Reg16) : (s.raisePrefix b).r16 q = s.r16 q := rfl
@[simp] theorem State.raisePrefix_r8 (s : State) (b : Byte) (q : Reg8) : (s.raisePrefix b).r8 q = s.r8 q := rfl
@[simp] theorem State.raisePrefix_sreg (s : State) (b : Byte) (k : SegReg) : (s.raisePrefix b).sreg k = s.sreg k := rfl
@[simp] theorem State.raisePrefix_kindAt (s : State) (b : Byte) (k : PAddr) : (s.raisePrefix b).kindAt k = s.kindAt k := rfl
@[simp] theorem State.raisePrefix_readByte (s : State) (b : Byte) (k : PAddr) : (s.raisePrefix b).readByte k = s.readByte k := rfl
@[simp] theorem State.raisePrefix_memByte (s : State) (b : Byte) (k : PAddr) : (s.raisePrefix b).memByte k = s.memByte k := rfl
@[simp] theorem State.raisePrefix_readWord (s : State) (b : Byte) (k : PAddr) : (s.raisePrefix b).readWord k = s.readWord k := rfl
@[simp] theorem State.decodedMem_r16 (s : State) (p : MemOp) (q : Reg16) : (s.decodedMem p).r16 q = s.r16 q := by simp [State.r16]
@[simp] theorem State.decodedMem_r8 (s : State) (p : MemOp) (q : Reg8) : (s.decodedMem p).r8 q = s.r8 q := by simp [State.r8]
@[simp] theorem State.decodedMem_sreg (s : State) (p : MemOp) (k : SegReg) : (s.decodedMem p).sreg k = s.sreg k := by simp [State.sreg]
@[simp] theorem State.decodedMem_kindAt (s : State) (p : MemOp) (k : PAddr) : (s.decodedMem p).kindAt k = s.kindAt k := by simp [State.kindAt]
@[simp] theorem State.decodedMem_readByte (s : State) (p : MemOp) (k : PAddr) : (s.decodedMem p).readByte k = s.readByte k := by simp [State.readByte]
@[simp] theorem State.decodedMem_memByte (s : State) (p : MemOp) (k : PAddr) : (s.decodedMem p).memByte k = s.memByte k := by simp [State.memByte]
@[simp] theorem State.decodedMem_readWord (s : State) (p : MemOp) (k : PAddr) : (s.decodedMem p).readWord k = s.readWord k := by simp [State.readWord]
@[simp] theorem State.decoded_r16 {R : Type} (s : State) (m : Rm R) (q : Reg16) : (s.decoded m).r16 q = s.r16 q := by simp [State.r16]
@[simp] theorem State.decoded_r8 {R : Type} (s : State) (m : Rm R) (q : Reg8) : (s.decoded m).r8 q = s.r8 q := by simp [State.r8]
@[simp] theorem State.decoded_sreg {R : Type} (s : State) (m : Rm R) (k : SegReg) : (s.decoded m).sreg k = s.sreg k := by simp [State.sreg]
@[simp] theorem State.decoded_kindAt {R : Type} (s : State) (m : Rm R) (k : PAddr) : (s.decoded m).kindAt k = s.kindAt k := by simp [State.kindAt]
@[simp] theorem State.decoded_readByte {R : Type} (s : State) (m : Rm R) (k : PAddr) : (s.decoded m).readByte k = s.readByte k := by simp [State.readByte]
@[simp] theorem State.decoded_memByte {R : Type} (s : State) (m : Rm R) (k : PAddr) : (s.decoded m).memByte k = s.memByte k := by simp [State.memByte]
@[simp] theorem State.decoded_readWord {R : Type} (s : State) (m : Rm R) (k : PAddr) : (s.decoded m).readWord k = s.readWord k := by simp [State.readWord]
@[simp] theorem State.afterOp8_r16 (s : State) (x : Operand Reg8) (q : Reg16) : (s.afterOp8 x).r16 q = s.r16 q := by simp [State.r16]
@[simp] theorem State.afterOp8_r8 (s : State) (x : Operand Reg8) (q : Reg8) : (s.afterOp8 x).r8 q = s.r8 q := by simp [State.r8]
@[simp] theorem State.afterOp8_sreg (s : State) (x : Operand Reg8) (k : SegReg) : (s.afterOp8 x).sreg k = s.sreg k := by simp [State.sreg]
@[simp] theorem State.afterOp8_kindAt (s : State) (x : Operand Reg8) (k : PAddr) : (s.afterOp8 x).kindAt k = s.kindAt k := by cases x <;> rfl
@[simp] theorem State.afterOp8_memByte (s : State) (x : Operand Reg8) (k : PAddr) : (s.afterOp8 x).memByte k = s.memByte k := by cases x <;> rfl
@[simp] theorem State.afterOp16_r16 (s : State) (x : Operand Reg16) (q : Reg16) : (s.afterOp16 x).r16 q = s.r16 q := by simp [State.r16]
@[simp] theorem State.afterOp16_r8 (s : State) (x : Operand Reg16) (q : Reg8) : (s.afterOp16 x).r8 q = s.r8 q := by simp [State.r8]
@[simp] theorem State.afterOp16_sreg (s : State) (x : Operand Reg16) (k : SegReg) : (s.afterOp16 x).sreg k = s.sreg k := by simp [State.sreg]
@[simp] theorem State.afterOp16_kindAt (s : State) (x : Operand Reg16) (k : PAddr) : (s.afterOp16 x).kindAt k = s.kindAt k := by cases x <;> rfl
@[simp] theorem State.afterOp16_memByte (s : State) (x : Operand Reg16) (k : PAddr) : (s.afterOp16 x).memByte k = s.memByte k := by cases x <;> rfl
@[simp] theorem State.loaded8_r16 (s : State) (m : Rm Reg8) (q : Reg16) : (s.loaded8 m).r16 q = s.r16 q := by simp [State.r16]
@[simp] theorem State.loaded8_r8 (s : State) (m : Rm Reg8) (q : Reg8) : (s.loaded8 m).r8 q = s.r8 q := by simp [State.r8]
@[simp] theorem State.loaded8_sreg (s : State) (m : Rm Reg8) (k : SegReg) : (s.loaded8 m).sreg k = s.sreg k := by simp [State.sreg]
@[simp] theorem State.loaded8_kindAt (s : State) (m : Rm Reg8) (k : PAddr) : (s.loaded8 m).kindAt k = s.kindAt k := by simp [State.loaded8]
@[simp] theorem State.loaded8_memByte (s : State) (m : Rm Reg8) (k : PAddr) : (s.loaded8 m).memByte k = s.memByte k := by simp [State.loaded8]
@[simp] theorem State.loaded16_r16 (s : State) (m : Rm Reg16) (q : Reg16) : (s.loaded16 m).r16 q = s.r16 q := by simp [State.r16]
@[simp] theorem State.loaded16_r8 (s : State) (m : Rm Reg16) (q : Reg8) : (s.loaded16 m).r8 q = s.r8 q := by simp [State.r8]
@[simp] theorem State.loaded16_sreg (s : State) (m : Rm Reg16) (k : SegReg) : (s.loaded16 m).sreg k = s.sreg k := by simp [State.sreg]
@[simp] theorem State.loaded16_kindAt (s : State) (m : Rm Reg16) (k : PAddr) : (s.loaded16 m).kindAt k = s.kindAt k := by simp [State.loaded16]
@[simp] theorem State.loaded16_memByte (s : State) (m : Rm Reg16) (k : PAddr) : (s.loaded16 m).memByte k = s.memByte k := by simp [State.loaded16]
@[simp] theorem State.afterFar_r16 (s : State) (ea : Word) (q : Reg16) : (s.afterFar ea).r16 q = s.r16 q := by simp [State.afterFar]
@[simp] theorem State.afterFar_r8 (s : State) (ea : Word) (q : Reg8) : (s.afterFar ea).r8 q = s.r8 q := by simp [State.afterFar]
@[simp] theorem State.afterFar_sreg (s : State) (ea : Word) (k : SegReg) : (s.afterFar ea).sreg k = s.sreg k := by simp [State.afterFar]
@[simp] theorem State.afterFar_kindAt (s : State) (ea : Word) (k : PAddr) : (s.afterFar ea).kindAt k = s.kindAt k := by simp [State.afterFar]
@[simp] theorem State.afterFar_memByte (s : State) (ea : Word) (k : PAddr) : (s.afterFar ea).memByte k = s.memByte k := by simp [State.afterFar]
@[simp] theorem State.afterImm8_r16 (s : State) (q : Reg16) : (s.afterImm8).r16 q = s.r16 q := by simp [State.afterImm8]
@[simp] theorem State.afterImm8_r8 (s : State) (q : Reg8) : (s.afterImm8).r8 q = s.r8 q := by simp [State.afterImm8]
@[simp] theorem State.afterImm8_sreg (s : State) (k : SegReg) : (s.afterImm8).sreg k = s.sreg k := by simp [State.afterImm8]
@[simp] theorem State.afterImm8_kindAt (s : State) (k : PAddr) : (s.afterImm8).kindAt k = s.kindAt k := by simp [State.afterImm8]
@[simp] theorem State.afterImm8_memByte (s : State) (k : PAddr) : (s.afterImm8).memByte k = s.memByte k := by simp [State.afterImm8]
@[simp] theorem State.afterImm16_r16 (s : State) (q : Reg16) : (s.afterImm16).r16 q = s.r16 q := by simp [State.afterImm16]
@[simp] theorem State.afterImm16_r8 (s : State) (q : Reg8) : (s.afterImm16).r8 q = s.r8 q := by simp [State.afterImm16]
@[simp] theorem State.afterImm16_sreg (s : State) (k : SegReg) : (s.afterImm16).sreg k = s.sreg k := by simp [State.afterImm16]
@[simp] theorem State.afterImm16_kindAt (s : State) (k : PAddr) : (s.afterImm16).kindAt k = s.kindAt k := by simp [State.afterImm16]
@[simp] theorem State.afterImm16_memByte (s : State) (k : PAddr) : (s.afterImm16).memByte k = s.memByte k := by simp [State.afterImm16]
@[simp] theorem State.clearPrefixes_r16 (s : State) (q : Reg16) : (s.clearPrefixes).r16 q = s.r16 q := rfl
@[simp] theorem State.clearPrefixes_r8 (s : State) (q : Reg8) : (s.clearPrefixes).r8 q = s.r8 q := rfl
@[simp] theorem State.clearPrefixes_sreg (s : State) (k : SegReg) : (s.clearPrefixes).sreg k = s.sreg k := rfl
@[simp] theorem State.clearPrefixes_kindAt (s : State) (k : PAddr) : (s.clearPrefixes).kindAt k = s.kindAt k := rfl
@[simp] theorem State.clearPrefixes_readByte (s : State) (k : PAddr) : (s.clearPrefixes).readByte k = s.readByte k := rfl
@[simp] theorem State.clearPrefixes_memByte (s : State) (k : PAddr) : (s.clearPrefixes).memByte k = s.memByte k := rfl
@[simp] theorem State.clearPrefixes_readWord (s : State) (k : PAddr) : (s.clearPrefixes).readWord k = s.readWord k := rfl
@[simp] theorem State.beginInstr_r16 (s : State) (q : Reg16) : (s.beginInstr).r16 q = s.r16 q := rfl
@[simp] theorem State.beginInstr_r8 (s : State) (q : Reg8) : (s.beginInstr).r8 q = s.r8 q := rfl
@[simp] theorem State.beginInstr_sreg (s : State) (k : SegReg) : (s.beginInstr).sreg k = s.sreg k := rfl
@[simp] theorem State.beginInstr_kindAt (s : State) (k : PAddr) : (s.beginInstr).kindAt k = s.kindAt k := rfl
@[simp] theorem State.beginInstr_readByte (s : State) (k : PAddr) : (s.beginInstr).readByte k = s.readByte k := rfl
@[simp] theorem State.beginInstr_memByte (s : State) (k : PAddr) : (s.beginInstr).memByte k = s.memByte k := rfl
@[simp] theorem State.beginInstr_readWord (s : State) (k : PAddr) : (s.beginInstr).readWord k = s.readWord k := rfl
@[simp] theorem State.afterFetchByte_r16 (s : State) (q : Reg16) : (s.afterFetchByte).r16 q = s.r16 q := rfl
@[simp] theorem State.afterFetchByte_r8 (s : State) (q : Reg8) : (s.afterFetchByte).r8 q = s.r8 q := rfl
@[simp] theorem State.afterFetchByte_sreg (s : State) (k : SegReg) : (s.afterFetchByte).sreg k = s.sreg k := rfl
@[simp] theorem State.afterFetchByte_kindAt (s : State) (k : PAddr) : (s.afterFetchByte).kindAt k = s.kindAt k := rfl
@[simp] theorem State.afterFetchByte_memByte (s : State) (k : PAddr) : (s.afterFetchByte).memByte k = s.memByte k := rfl

end Sys2Proof.Machine
end

