-- ==== Sys2Proof/Laws/Registers.lean ====
section
/-! SUPPORT. What reading a register gives after a write of one: word registers, byte halves, segment
registers, flags (10_state.md R30, R31, R34, R37). -/

namespace Sys2Proof.Machine

/-! ## Word registers -/

@[simp] theorem Regs.get_set_self (g : Regs) (r : Reg16) (v : Word) : (g.set r v).get r = v := by
  cases r <;> rfl

@[simp] theorem Regs.get_set_ne (g : Regs) {r q : Reg16} (v : Word) (h : q ≠ r) :
    (g.set r v).get q = g.get q := by
  cases r <;> cases q <;> first | rfl | exact absurd rfl h

theorem Regs.get_set (g : Regs) (r q : Reg16) (v : Word) :
    (g.set r v).get q = if q = r then v else g.get q := by
  split
  · next h => subst h; simp
  · next h => simp [h]

@[simp] theorem Regs.set_set (g : Regs) (r : Reg16) (v w : Word) : (g.set r v).set r w = g.set r w := by
  cases r <;> rfl

@[simp] theorem Regs.set_get (g : Regs) (r : Reg16) : g.set r (g.get r) = g := by
  cases r <;> rfl

theorem Regs.ext_get {g k : Regs} (h : ∀ r, g.get r = k.get r) : g = k := by
  cases g; cases k
  have hax := h .ax; have hbx := h .bx; have hcx := h .cx; have hdx := h .dx
  have hsp := h .sp; have hbp := h .bp; have hsi := h .si; have hdi := h .di
  simp_all [Regs.get]

@[simp] theorem State.r16_setR16_self (s : State) (r : Reg16) (v : Word) : (s.setR16 r v).r16 r = v := by
  simp [State.r16, State.setR16]

@[simp] theorem State.setR16_setR16 (s : State) (r : Reg16) (v w : Word) :
    (s.setR16 r v).setR16 r w = s.setR16 r w := by
  simp [State.setR16]

@[simp] theorem State.r16_setR16_ne (s : State) {r q : Reg16} (v : Word) (h : q ≠ r) :
    (s.setR16 r v).r16 q = s.r16 q := by
  simp [State.r16, State.setR16, h]

/-- Every read after a word write: the value written, or the old one. -/
theorem State.r16_setR16 (s : State) (r q : Reg16) (v : Word) :
    (s.setR16 r v).r16 q = if q = r then v else s.r16 q := Regs.get_set _ _ _ _

/-! ## Byte halves -/

theorem State.r8_eq (s : State) (r : Reg8) :
    s.r8 r = if isHighHalf r then highByte (s.r16 (parentReg r)) else lowByte (s.r16 (parentReg r)) := rfl

/-- The word a byte write leaves in the parent register: the other half is kept. -/
theorem State.setR8_eq (s : State) (r : Reg8) (v : Byte) :
    s.setR8 r v = s.setR16 (parentReg r)
      (if isHighHalf r then leWord (lowByte (s.r16 (parentReg r))) v
       else leWord v (highByte (s.r16 (parentReg r)))) := rfl

@[simp] theorem State.r8_setR8_self (s : State) (r : Reg8) (v : Byte) : (s.setR8 r v).r8 r = v := by
  rw [State.setR8_eq, State.r8_eq, State.r16_setR16_self]
  cases isHighHalf r <;> simp

theorem half_eq {r q : Reg8} (hp : parentReg q = parentReg r) (hh : isHighHalf q = isHighHalf r) : q = r := by
  cases r <;> cases q <;> first | rfl | exact absurd hp (by decide) | exact absurd hh (by decide)

@[simp] theorem State.r8_setR8_ne (s : State) {r q : Reg8} (v : Byte) (h : q ≠ r) :
    (s.setR8 r v).r8 q = s.r8 q := by
  rw [State.setR8_eq, State.r8_eq, State.r8_eq]
  by_cases hp : parentReg q = parentReg r
  · have hh : isHighHalf q ≠ isHighHalf r := fun e => h (half_eq hp e)
    rw [hp, State.r16_setR16_self]
    cases hq : isHighHalf q <;> cases hr : isHighHalf r <;> simp_all
  · rw [State.r16_setR16_ne _ _ hp]

theorem State.r8_setR8 (s : State) (r q : Reg8) (v : Byte) :
    (s.setR8 r v).r8 q = if q = r then v else s.r8 q := by
  split
  · next h => subst h; simp
  · next h => simp [h]

@[simp] theorem State.r16_setR8_ne (s : State) {r : Reg8} {q : Reg16} (v : Byte) (h : q ≠ parentReg r) :
    (s.setR8 r v).r16 q = s.r16 q := by
  rw [State.setR8_eq, State.r16_setR16_ne _ _ h]

@[simp] theorem State.r16_setR8_self (s : State) (r : Reg8) (v : Byte) :
    (s.setR8 r v).r16 (parentReg r) = if isHighHalf r then leWord (lowByte (s.r16 (parentReg r))) v
      else leWord v (highByte (s.r16 (parentReg r))) := by
  rw [State.setR8_eq, State.r16_setR16_self]

theorem State.r8_setR16 (s : State) (r : Reg16) (q : Reg8) (v : Word) :
    (s.setR16 r v).r8 q = if parentReg q = r then (if isHighHalf q then highByte v else lowByte v)
      else s.r8 q := by
  rw [State.r8_eq, State.r8_eq]
  by_cases h : parentReg q = r
  · subst h; simp
  · simp [h]

/-! ## Segment registers -/

@[simp] theorem State.sreg_setSreg_self (s : State) (g : SegReg) (v : Word) : (s.setSreg g v).sreg g = v := by
  cases g <;> rfl

@[simp] theorem State.sreg_setSreg_ne (s : State) {g k : SegReg} (v : Word) (h : k ≠ g) :
    (s.setSreg g v).sreg k = s.sreg k := by
  cases g <;> cases k <;> first | rfl | exact absurd rfl h

/-! ## Flags -/

@[simp] theorem Flags.get_set_self (f : Flags) (n : FlagName) (b : Bool) : (f.set n b).get n = b := by
  cases n <;> rfl

@[simp] theorem Flags.get_set_ne (f : Flags) {n k : FlagName} (b : Bool) (h : k ≠ n) :
    (f.set n b).get k = f.get k := by
  cases n <;> cases k <;> first | rfl | exact absurd rfl h

/-- A flag that is left undefined is the only one that may change (10_state.md R48). -/
theorem State.get_undefFlag_ne (s : State) {n k : FlagName} (h : k ≠ n) :
    (s.undefFlag n).flags.get k = s.flags.get k := by
  unfold State.undefFlag
  split
  · exact Flags.get_set_ne _ _ h
  · rfl

/-- Under `P_UNDEF_FLAGS = unchanged` nothing is drawn (10_state.md R48). -/
theorem State.undefFlag_unchanged (s : State) (n : FlagName) (h : s.params.undefFlags = .unchanged) :
    s.undefFlag n = s := by
  simp [State.undefFlag, h]

/-- Under `P_UNDEF_FLAGS = draw` the flag is the next free value (10_state.md R48). -/
theorem State.get_undefFlag_draw (s : State) (n : FlagName) (h : s.params.undefFlags = .draw) :
    (s.undefFlag n).flags.get n = Config.freeFlag s.draws := by
  simp [State.undefFlag, h]

/-- Flags outside the undefined ones are kept. -/
theorem State.get_undefFlags_ne (ns : List FlagName) (s : State) {k : FlagName} (h : k ∉ ns) :
    (State.undefFlags ns s).flags.get k = s.flags.get k := by
  induction ns generalizing s with
  | nil => rfl
  | cons n ns ih =>
    simp only [List.mem_cons, not_or] at h
    rw [State.undefFlags, ih _ h.2, State.get_undefFlag_ne _ h.1]

end Sys2Proof.Machine
end

