-- ==== Sys2Proof/Laws/Memory.lean ====
section
/-! SUPPORT. Memory and the bus: what memory holds after a write, what a read answers, and that every bus
operation keeps the canonical form (20_memory.md R80, R82, R86, R96; log 3). -/

namespace Sys2Proof.Machine

/-! ## Cells -/

/-- What memory holds after a write: the byte written, and every other as it was. -/
theorem memFind_write (m : List Host.Cell) (a b : Nat) (v : Byte) :
    memFind (memWrite m a v) b = if b = a then some v else memFind m b := by
  induction m with
  | nil => simp only [memWrite, memFind, eq_comm (a := a)]
  | cons c cs ih =>
    simp only [memWrite]
    split
    · simp only [memFind, eq_comm (a := a)]
    · split
      · next h =>
        subst h
        simp only [memFind, eq_comm (b := b)]
        split <;> rfl
      · next h =>
        simp only [memFind, ih]
        split
        · next hc => rw [if_neg (by omega)]
        · rfl

theorem memWfFrom_mono {lo lo' : Nat} (h : lo' ≤ lo) : ∀ m, memWfFrom lo m = true → memWfFrom lo' m = true
  | [], _ => rfl
  | c :: cs, hm => by
    simp only [memWfFrom, Bool.and_eq_true, decide_eq_true_eq] at hm ⊢
    exact ⟨⟨by omega, hm.1.2⟩, hm.2⟩

theorem memWfFrom_write {a : Nat} (v : Byte) (ha : a < 2 ^ 20) :
    ∀ m lo, lo ≤ a → memWfFrom lo m = true → memWfFrom lo (memWrite m a v) = true
  | [], lo, hl, _ => by simp [memWrite, memWfFrom, hl]; omega
  | c :: cs, lo, hl, hm => by
    simp only [memWfFrom, Bool.and_eq_true, decide_eq_true_eq] at hm
    simp only [memWrite]
    split
    · next h =>
      simp only [memWfFrom, Bool.and_eq_true, decide_eq_true_eq]
      exact ⟨⟨hl, ha⟩, ⟨by omega, hm.1.2⟩, hm.2⟩
    · split
      · next h =>
        subst h
        simp only [memWfFrom, Bool.and_eq_true, decide_eq_true_eq]
        exact ⟨⟨hl, ha⟩, hm.2⟩
      · next h =>
        simp only [memWfFrom, Bool.and_eq_true, decide_eq_true_eq]
        exact ⟨hm.1, memWfFrom_write v ha cs (c.1 + 1) (by omega) hm.2⟩

/-- A write keeps the canonical form. -/
theorem memWf_write {m : List Host.Cell} {a : Nat} (v : Byte) (ha : a < 2 ^ 20) (h : memWf m = true) :
    memWf (memWrite m a v) = true := memWfFrom_write v ha m 0 (Nat.zero_le _) h

theorem mem_write {m : List Host.Cell} {a : Nat} {v : Byte} : ∀ {c : Host.Cell}, c ∈ memWrite m a v →
    c = (a, v) ∨ c ∈ m := by
  induction m with
  | nil => simp [memWrite]
  | cons d ds ih =>
    intro c
    simp only [memWrite]
    split
    · simp
    · split
      · simp only [List.mem_cons]
        rintro (h | h)
        · exact .inl h
        · exact .inr (.inr h)
      · simp only [List.mem_cons]
        rintro (h | h)
        · exact .inr (.inl h)
        · exact (ih h).imp_right .inr

/-! ## The bus -/

/-- What memory holds after a byte is put at an address: RAM keeps it, and nothing else changes. -/
theorem Bus.memByte_store (b : Bus) (a c : PAddr) (v : Byte) :
    (b.store a v).memByte c = if c = a ∧ b.kindAt a = .ram then some v else b.memByte c := by
  have hk : (b.store a v).kindAt c = b.kindAt c := rfl
  unfold Bus.memByte
  rw [hk]
  by_cases hr : b.kindAt a = .ram
  · have hm : (b.store a v).mem = memWrite b.mem a.toNat v := by simp [Bus.store, hr]
    rw [hm, memFind_write]
    by_cases hc : c = a
    · subst hc; simp [hr]
    · have : ¬ c.toNat = a.toNat := fun e => hc (BitVec.eq_of_toNat_eq e)
      simp [hc, this]
  · have hm : (b.store a v).mem = b.mem := by simp [Bus.store, hr]
    simp [hm, hr]

/-- A byte that memory holds is what a read answers. -/
theorem Bus.answer_of_memByte {b : Bus} {a : PAddr} {v : Byte} (h : b.memByte a = some v) : b.answer a = v := by
  simp [Bus.answer, h]

/-- Where memory holds a byte, reading it uses up no answer. -/
theorem Bus.answered_of_memByte {b : Bus} {a : PAddr} {v : Byte} (h : b.memByte a = some v) : b.answered a = b := by
  simp [Bus.answered, h]

/-- A word that memory holds is what a read answers. -/
theorem Bus.wordAnswer_of_memByte {b : Bus} {a : PAddr} {lo hi : Byte} (h : b.memByte a = some lo)
    (h1 : b.memByte (a + 1) = some hi) : b.wordAnswer a = leWord lo hi := by
  rw [Bus.wordAnswer, Bus.answer_of_memByte h, Bus.answered_of_memByte h, Bus.answer_of_memByte h1]

/-- A byte put at an address keeps the canonical form. -/
theorem Bus.wf_store {b : Bus} (a : PAddr) (v : Byte) (h : b.wf = true) : (b.store a v).wf = true := by
  by_cases hr : b.kindAt a = .ram
  · simp only [Bus.wf, Bus.store, hr, if_true, Bool.and_eq_true, List.all_eq_true] at h ⊢
    refine ⟨memWf_write v a.isLt h.1, fun c hc => ?_⟩
    rcases mem_write hc with rfl | hc
    · have : kindIn b.windows a.toNat = .ram := hr
      simp [this]
    · exact h.2 c hc
  · simpa [Bus.wf, Bus.store, hr] using h

/-- The form holds at reset. -/
theorem wf_reset : State.reset.bus.wf = true := rfl

/-! ## Bytes and words of a state -/

/-- What memory holds after a byte is written. -/
theorem State.memByte_writeByte (s : State) (a c : PAddr) (v : Byte) :
    (s.writeByte a v).memByte c = if c = a ∧ s.kindAt a = .ram then some v else s.memByte c := by
  show (s.bus.store a v).memByte c = _
  rw [Bus.memByte_store]
  rfl

@[simp] theorem State.memByte_writeByte_ne (s : State) {a c : PAddr} (v : Byte) (h : c ≠ a) :
    (s.writeByte a v).memByte c = s.memByte c := by simp [State.memByte_writeByte, h]

theorem State.memByte_writeByte_ram (s : State) {a : PAddr} (v : Byte) (h : s.kindAt a = .ram) :
    (s.writeByte a v).memByte a = some v := by simp [State.memByte_writeByte, h]

/-- An address is not the next one: word bytes are two different bytes (20_memory.md R82). -/
theorem PAddr.ne_succ (a : PAddr) : a ≠ a + 1#20 := by bv_omega

/-- What memory holds after a word is written: its low byte at the address and its high byte at the next, each
where RAM stands (20_memory.md R82, R86). -/
theorem State.memByte_writeWord (s : State) (a c : PAddr) (v : Word) :
    (s.writeWord a v).memByte c =
      if c = a + 1 ∧ s.kindAt (a + 1) = .ram then some (highByte v)
      else if c = a ∧ s.kindAt a = .ram then some (lowByte v) else s.memByte c := by
  show ((s.bus.store a (lowByte v)).store (a + 1) (highByte v)).memByte c = _
  rw [Bus.memByte_store, Bus.memByte_store]
  rfl

@[simp] theorem State.memByte_writeWord_ne (s : State) {a c : PAddr} (v : Word) (h : c ≠ a) (h1 : c ≠ a + 1#20) :
    (s.writeWord a v).memByte c = s.memByte c := by
  rw [State.memByte_writeWord, if_neg fun e => h1 e.1, if_neg fun e => h e.1]

theorem State.memByte_writeWord_low (s : State) {a : PAddr} (v : Word) (h : s.kindAt a = .ram) :
    (s.writeWord a v).memByte a = some (lowByte v) := by
  rw [State.memByte_writeWord, if_neg fun e => PAddr.ne_succ a e.1, if_pos ⟨rfl, h⟩]

theorem State.memByte_writeWord_high (s : State) {a : PAddr} (v : Word) (h : s.kindAt (a + 1#20) = .ram) :
    (s.writeWord a v).memByte (a + 1#20) = some (highByte v) := by
  rw [State.memByte_writeWord, if_pos ⟨rfl, h⟩]

/-- A read answers the byte that memory holds. -/
theorem State.readByte_of_memByte {s : State} {a : PAddr} {v : Byte} (h : s.memByte a = some v) :
    s.readByte a = v := Bus.answer_of_memByte h

/-- A read answers the word that memory holds. -/
theorem State.readWord_of_memByte {s : State} {a : PAddr} {lo hi : Byte} (h : s.memByte a = some lo)
    (h1 : s.memByte (a + 1#20) = some hi) : s.readWord a = leWord lo hi := Bus.wordAnswer_of_memByte h h1

/-- A word written to RAM reads back. -/
theorem State.readWord_of_written {s : State} {a : PAddr} {v : Word} (h : s.memByte a = some (lowByte v))
    (h1 : s.memByte (a + 1#20) = some (highByte v)) : s.readWord a = v := by
  rw [State.readWord_of_memByte h h1, leWord_low_high]

@[simp] theorem State.wf_writeByte (s : State) (a : PAddr) (v : Byte) (h : s.bus.wf = true) :
    (s.writeByte a v).bus.wf = true := Bus.wf_store a v h

@[simp] theorem State.wf_writeWord (s : State) (a : PAddr) (v : Word) (h : s.bus.wf = true) :
    (s.writeWord a v).bus.wf = true := Bus.wf_store _ _ (Bus.wf_store _ _ h)

@[simp] theorem State.wf_push (s : State) (v : Word) (h : s.bus.wf = true) :
    (s.push v).bus.wf = true := State.wf_writeWord (s.setR16 .sp (s.r16 .sp - 2)) _ _ h

@[simp] theorem State.wf_afterReadByte (s : State) (a : PAddr) : (s.afterReadByte a).bus.wf = s.bus.wf := rfl

@[simp] theorem State.wf_afterReadWord (s : State) (a : PAddr) : (s.afterReadWord a).bus.wf = s.bus.wf := rfl

@[simp] theorem State.wf_afterPop (s : State) : s.afterPop.bus.wf = s.bus.wf := rfl

/-- Interrupt entry keeps the canonical form. -/
theorem State.wf_serviceInterrupt (s : State) (n : Byte) (h : s.bus.wf = true) :
    (s.serviceInterrupt n).bus.wf = true := by
  simp only [State.serviceInterrupt, State.setIp_bus, State.wf_afterReadWord]
  refine State.wf_push _ _ ?_
  rw [State.setSreg_bus, State.wf_afterReadWord]
  refine State.wf_push _ _ ?_
  rw [State.setFlags_bus]
  exact State.wf_push _ _ h

end Sys2Proof.Machine
end

