-- ==== Sys2Proof/Laws/Operands.lean ====
section
/-! SUPPORT. The operand forms and the stack: what a write of an operand leaves, that it reads back, and
what pushes, pops and interrupt entry do (30_encoding.md R137; 46_stack.md R450, R451;
60_exceptions.md R620). -/

namespace Sys2Proof.Machine

/-! ## Data addresses -/

/-- A data address rests on the segment registers and the override alone (20_memory.md R87). -/
theorem State.dataAddr_congr {s t : State} (h : t.segOverride = s.segOverride) (hs : t.segs = s.segs) :
    t.dataAddr = s.dataAddr := by
  funext off
  simp [State.dataAddr, State.dataSeg, State.sreg, h, hs]

@[simp] theorem State.setR16_dataAddr (s : State) (r : Reg16) (v : Word) : (s.setR16 r v).dataAddr = s.dataAddr := rfl
@[simp] theorem State.setR8_dataAddr (s : State) (r : Reg8) (v : Byte) : (s.setR8 r v).dataAddr = s.dataAddr := rfl
@[simp] theorem State.setIp_dataAddr (s : State) (v : Word) : (s.setIp v).dataAddr = s.dataAddr := rfl
@[simp] theorem State.setFlags_dataAddr (s : State) (f : Flags) : (s.setFlags f).dataAddr = s.dataAddr := rfl
@[simp] theorem State.writeByte_dataAddr (s : State) (a : PAddr) (v : Byte) : (s.writeByte a v).dataAddr = s.dataAddr := rfl
@[simp] theorem State.writeWord_dataAddr (s : State) (a : PAddr) (v : Word) : (s.writeWord a v).dataAddr = s.dataAddr := rfl
@[simp] theorem State.afterReadByte_dataAddr (s : State) (a : PAddr) : (s.afterReadByte a).dataAddr = s.dataAddr := rfl
@[simp] theorem State.afterReadWord_dataAddr (s : State) (a : PAddr) : (s.afterReadWord a).dataAddr = s.dataAddr := rfl
@[simp] theorem State.afterOp8_dataAddr (s : State) (x : Operand Reg8) : (s.afterOp8 x).dataAddr = s.dataAddr := by cases x <;> rfl
@[simp] theorem State.afterOp16_dataAddr (s : State) (x : Operand Reg16) : (s.afterOp16 x).dataAddr = s.dataAddr := by cases x <;> rfl
@[simp] theorem State.afterFar_dataAddr (s : State) (ea : Word) : (s.afterFar ea).dataAddr = s.dataAddr := rfl
@[simp] theorem State.afterImm8_dataAddr (s : State) : (s.afterImm8).dataAddr = s.dataAddr := rfl
@[simp] theorem State.afterImm16_dataAddr (s : State) : (s.afterImm16).dataAddr = s.dataAddr := rfl
@[simp] theorem State.afterIoRead_dataAddr (s : State) (p : Word) : (s.afterIoRead p).dataAddr = s.dataAddr := rfl
@[simp] theorem State.undefFlag_dataAddr (s : State) (n : FlagName) : (s.undefFlag n).dataAddr = s.dataAddr := State.dataAddr_congr (by simp) (by simp)
@[simp] theorem State.push_dataAddr (s : State) (v : Word) : (s.push v).dataAddr = s.dataAddr := rfl
@[simp] theorem State.afterPop_dataAddr (s : State) : (s.afterPop).dataAddr = s.dataAddr := rfl

/-- The address of a ModRM memory operand: the override's segment, else SS for a BP-based operand, else DS
(20_memory.md R87, 30_encoding.md R134). -/
theorem State.decodedMem_dataAddr (s : State) (p : MemOp) (off : Word) :
    (s.decodedMem p).dataAddr off = phys (match s.segOverride with
      | some g => s.sreg g
      | none => if stackBased p then s.sreg .ss else s.sreg .ds) off := by
  unfold State.decodedMem State.dataAddr State.dataSeg
  cases h : s.segOverride <;> cases hp : stackBased p <;> simp [h, State.sreg]

/-- What the decoder writes, as one update: `seg_override` alone (10_state.md R50). -/
theorem State.decodedMem_eq (s : State) (p : MemOp) : s.decodedMem p = { s with
    segOverride := if stackBased p ∧ s.segOverride = none then some .ss else s.segOverride } := by
  unfold State.decodedMem
  cases h : s.segOverride <;> cases hp : stackBased p <;> simp <;> cases s <;> simp_all

/-! ## Writing an operand -/

@[simp] theorem State.writeOp8_segs (s : State) (x : Operand Reg8) (v : Byte) : (s.writeOp8 x v).segs = s.segs := by cases x <;> rfl
@[simp] theorem State.writeOp8_ip (s : State) (x : Operand Reg8) (v : Byte) : (s.writeOp8 x v).ip = s.ip := by cases x <;> rfl
@[simp] theorem State.writeOp8_flags (s : State) (x : Operand Reg8) (v : Byte) : (s.writeOp8 x v).flags = s.flags := by cases x <;> rfl
@[simp] theorem State.writeOp8_segOverride (s : State) (x : Operand Reg8) (v : Byte) : (s.writeOp8 x v).segOverride = s.segOverride := by cases x <;> rfl
@[simp] theorem State.writeOp8_rep (s : State) (x : Operand Reg8) (v : Byte) : (s.writeOp8 x v).rep = s.rep := by cases x <;> rfl
@[simp] theorem State.writeOp8_lock (s : State) (x : Operand Reg8) (v : Byte) : (s.writeOp8 x v).lock = s.lock := by cases x <;> rfl
@[simp] theorem State.writeOp8_opCs (s : State) (x : Operand Reg8) (v : Byte) : (s.writeOp8 x v).opCs = s.opCs := by cases x <;> rfl
@[simp] theorem State.writeOp8_opIp (s : State) (x : Operand Reg8) (v : Byte) : (s.writeOp8 x v).opIp = s.opIp := by cases x <;> rfl
@[simp] theorem State.writeOp8_halted (s : State) (x : Operand Reg8) (v : Byte) : (s.writeOp8 x v).halted = s.halted := by cases x <;> rfl
@[simp] theorem State.writeOp8_faultRec (s : State) (x : Operand Reg8) (v : Byte) : (s.writeOp8 x v).faultRec = s.faultRec := by cases x <;> rfl
@[simp] theorem State.writeOp8_irq (s : State) (x : Operand Reg8) (v : Byte) : (s.writeOp8 x v).irq = s.irq := by cases x <;> rfl
@[simp] theorem State.writeOp8_draws (s : State) (x : Operand Reg8) (v : Byte) : (s.writeOp8 x v).draws = s.draws := by cases x <;> rfl
@[simp] theorem State.writeOp8_params (s : State) (x : Operand Reg8) (v : Byte) : (s.writeOp8 x v).params = s.params := by cases x <;> rfl
@[simp] theorem State.writeOp8_busInstalled (s : State) (x : Operand Reg8) (v : Byte) : (s.writeOp8 x v).busInstalled = s.busInstalled := by cases x <;> rfl
@[simp] theorem State.writeOp8_sreg (s : State) (x : Operand Reg8) (v : Byte) (g : SegReg) : (s.writeOp8 x v).sreg g = s.sreg g := by cases x <;> rfl
@[simp] theorem State.writeOp8_dataAddr (s : State) (x : Operand Reg8) (v : Byte) : (s.writeOp8 x v).dataAddr = s.dataAddr := by cases x <;> rfl
@[simp] theorem State.readOp8_setFlags (s : State) (x : Operand Reg8) (f : Flags) : (s.setFlags f).readOp8 x = s.readOp8 x := by cases x <;> rfl
@[simp] theorem State.readOp8_setIp (s : State) (x : Operand Reg8) (v : Word) : (s.setIp v).readOp8 x = s.readOp8 x := by cases x <;> rfl
@[simp] theorem State.readOp8_undefFlag (s : State) (x : Operand Reg8) (n : FlagName) : (s.undefFlag n).readOp8 x = s.readOp8 x := by cases x <;> simp [State.readOp8]

/-- A register operand written is the register written. -/
@[simp] theorem State.writeOp8_reg (s : State) (r : Reg8) (v : Byte) :
    s.writeOp8 (.reg r) v = s.setR8 r v := rfl

/-- A memory operand written is memory written at its address. -/
@[simp] theorem State.writeOp8_mem (s : State) (ea : Word) (v : Byte) :
    s.writeOp8 (.mem ea) v = s.writeByte (s.dataAddr ea) v := rfl

@[simp] theorem State.readOp8_reg (s : State) (r : Reg8) : s.readOp8 (.reg r) = s.r8 r := rfl

@[simp] theorem State.readOp8_mem (s : State) (ea : Word) :
    s.readOp8 (.mem ea) = s.readByte (s.dataAddr ea) := rfl

@[simp] theorem State.afterOp8_reg (s : State) (r : Reg8) : s.afterOp8 (.reg r) = s := rfl

@[simp] theorem State.afterOp8_mem (s : State) (ea : Word) :
    s.afterOp8 (.mem ea) = s.afterReadByte (s.dataAddr ea) := rfl

/-- Reading an operand after its decode touches the bus alone, so its address stands. -/
@[simp] theorem State.loaded8_dataAddr (s : State) (m : Rm Reg8) :
    (s.loaded8 m).dataAddr = (s.decoded m).dataAddr := by simp [State.loaded8]

@[simp] theorem State.wf_afterOp8 (s : State) (x : Operand Reg8) : (s.afterOp8 x).bus.wf = s.bus.wf := by
  cases x <;> rfl

@[simp] theorem State.wf_loaded8 (s : State) (m : Rm Reg8) : (s.loaded8 m).bus.wf = s.bus.wf := by
  simp [State.loaded8]

/-- The canonical form of memory is kept. -/
@[simp] theorem State.wf_writeOp8 (s : State) (x : Operand Reg8) (v : Byte) (h : s.bus.wf = true) :
    (s.writeOp8 x v).bus.wf = true := by
  cases x with
  | reg r => exact h
  | mem ea => exact State.wf_writeByte _ _ _ h

@[simp] theorem State.writeOp16_segs (s : State) (x : Operand Reg16) (v : Word) : (s.writeOp16 x v).segs = s.segs := by cases x <;> rfl
@[simp] theorem State.writeOp16_ip (s : State) (x : Operand Reg16) (v : Word) : (s.writeOp16 x v).ip = s.ip := by cases x <;> rfl
@[simp] theorem State.writeOp16_flags (s : State) (x : Operand Reg16) (v : Word) : (s.writeOp16 x v).flags = s.flags := by cases x <;> rfl
@[simp] theorem State.writeOp16_segOverride (s : State) (x : Operand Reg16) (v : Word) : (s.writeOp16 x v).segOverride = s.segOverride := by cases x <;> rfl
@[simp] theorem State.writeOp16_rep (s : State) (x : Operand Reg16) (v : Word) : (s.writeOp16 x v).rep = s.rep := by cases x <;> rfl
@[simp] theorem State.writeOp16_lock (s : State) (x : Operand Reg16) (v : Word) : (s.writeOp16 x v).lock = s.lock := by cases x <;> rfl
@[simp] theorem State.writeOp16_opCs (s : State) (x : Operand Reg16) (v : Word) : (s.writeOp16 x v).opCs = s.opCs := by cases x <;> rfl
@[simp] theorem State.writeOp16_opIp (s : State) (x : Operand Reg16) (v : Word) : (s.writeOp16 x v).opIp = s.opIp := by cases x <;> rfl
@[simp] theorem State.writeOp16_halted (s : State) (x : Operand Reg16) (v : Word) : (s.writeOp16 x v).halted = s.halted := by cases x <;> rfl
@[simp] theorem State.writeOp16_faultRec (s : State) (x : Operand Reg16) (v : Word) : (s.writeOp16 x v).faultRec = s.faultRec := by cases x <;> rfl
@[simp] theorem State.writeOp16_irq (s : State) (x : Operand Reg16) (v : Word) : (s.writeOp16 x v).irq = s.irq := by cases x <;> rfl
@[simp] theorem State.writeOp16_draws (s : State) (x : Operand Reg16) (v : Word) : (s.writeOp16 x v).draws = s.draws := by cases x <;> rfl
@[simp] theorem State.writeOp16_params (s : State) (x : Operand Reg16) (v : Word) : (s.writeOp16 x v).params = s.params := by cases x <;> rfl
@[simp] theorem State.writeOp16_busInstalled (s : State) (x : Operand Reg16) (v : Word) : (s.writeOp16 x v).busInstalled = s.busInstalled := by cases x <;> rfl
@[simp] theorem State.writeOp16_sreg (s : State) (x : Operand Reg16) (v : Word) (g : SegReg) : (s.writeOp16 x v).sreg g = s.sreg g := by cases x <;> rfl
@[simp] theorem State.writeOp16_dataAddr (s : State) (x : Operand Reg16) (v : Word) : (s.writeOp16 x v).dataAddr = s.dataAddr := by cases x <;> rfl
@[simp] theorem State.readOp16_setFlags (s : State) (x : Operand Reg16) (f : Flags) : (s.setFlags f).readOp16 x = s.readOp16 x := by cases x <;> rfl
@[simp] theorem State.readOp16_setIp (s : State) (x : Operand Reg16) (v : Word) : (s.setIp v).readOp16 x = s.readOp16 x := by cases x <;> rfl
@[simp] theorem State.readOp16_undefFlag (s : State) (x : Operand Reg16) (n : FlagName) : (s.undefFlag n).readOp16 x = s.readOp16 x := by cases x <;> simp [State.readOp16]

/-- A register operand written is the register written. -/
@[simp] theorem State.writeOp16_reg (s : State) (r : Reg16) (v : Word) :
    s.writeOp16 (.reg r) v = s.setR16 r v := rfl

/-- A memory operand written is memory written at its address. -/
@[simp] theorem State.writeOp16_mem (s : State) (ea : Word) (v : Word) :
    s.writeOp16 (.mem ea) v = s.writeWord (s.dataAddr ea) v := rfl

@[simp] theorem State.readOp16_reg (s : State) (r : Reg16) : s.readOp16 (.reg r) = s.r16 r := rfl

@[simp] theorem State.readOp16_mem (s : State) (ea : Word) :
    s.readOp16 (.mem ea) = s.readWord (s.dataAddr ea) := rfl

@[simp] theorem State.afterOp16_reg (s : State) (r : Reg16) : s.afterOp16 (.reg r) = s := rfl

@[simp] theorem State.afterOp16_mem (s : State) (ea : Word) :
    s.afterOp16 (.mem ea) = s.afterReadWord (s.dataAddr ea) := rfl

/-- Reading an operand after its decode touches the bus alone, so its address stands. -/
@[simp] theorem State.loaded16_dataAddr (s : State) (m : Rm Reg16) :
    (s.loaded16 m).dataAddr = (s.decoded m).dataAddr := by simp [State.loaded16]

@[simp] theorem State.wf_afterOp16 (s : State) (x : Operand Reg16) : (s.afterOp16 x).bus.wf = s.bus.wf := by
  cases x <;> rfl

@[simp] theorem State.wf_loaded16 (s : State) (m : Rm Reg16) : (s.loaded16 m).bus.wf = s.bus.wf := by
  simp [State.loaded16]

/-- The canonical form of memory is kept. -/
@[simp] theorem State.wf_writeOp16 (s : State) (x : Operand Reg16) (v : Word) (h : s.bus.wf = true) :
    (s.writeOp16 x v).bus.wf = true := by
  cases x with
  | reg r => exact h
  | mem ea => exact State.wf_writeWord _ _ _ h

/-! ## Several undefined flags -/

@[simp] theorem State.undefFlags_regs (ns : List FlagName) (s : State) : (State.undefFlags ns s).regs = s.regs := by
  induction ns generalizing s with
  | nil => rfl
  | cons n ns ih => simp [State.undefFlags, ih]
@[simp] theorem State.undefFlags_bus (ns : List FlagName) (s : State) : (State.undefFlags ns s).bus = s.bus := by
  induction ns generalizing s with
  | nil => rfl
  | cons n ns ih => simp [State.undefFlags, ih]
@[simp] theorem State.undefFlags_segs (ns : List FlagName) (s : State) : (State.undefFlags ns s).segs = s.segs := by
  induction ns generalizing s with
  | nil => rfl
  | cons n ns ih => simp [State.undefFlags, ih]
@[simp] theorem State.undefFlags_ip (ns : List FlagName) (s : State) : (State.undefFlags ns s).ip = s.ip := by
  induction ns generalizing s with
  | nil => rfl
  | cons n ns ih => simp [State.undefFlags, ih]
@[simp] theorem State.undefFlags_segOverride (ns : List FlagName) (s : State) : (State.undefFlags ns s).segOverride = s.segOverride := by
  induction ns generalizing s with
  | nil => rfl
  | cons n ns ih => simp [State.undefFlags, ih]
@[simp] theorem State.undefFlags_rep (ns : List FlagName) (s : State) : (State.undefFlags ns s).rep = s.rep := by
  induction ns generalizing s with
  | nil => rfl
  | cons n ns ih => simp [State.undefFlags, ih]
@[simp] theorem State.undefFlags_lock (ns : List FlagName) (s : State) : (State.undefFlags ns s).lock = s.lock := by
  induction ns generalizing s with
  | nil => rfl
  | cons n ns ih => simp [State.undefFlags, ih]
@[simp] theorem State.undefFlags_opCs (ns : List FlagName) (s : State) : (State.undefFlags ns s).opCs = s.opCs := by
  induction ns generalizing s with
  | nil => rfl
  | cons n ns ih => simp [State.undefFlags, ih]
@[simp] theorem State.undefFlags_opIp (ns : List FlagName) (s : State) : (State.undefFlags ns s).opIp = s.opIp := by
  induction ns generalizing s with
  | nil => rfl
  | cons n ns ih => simp [State.undefFlags, ih]
@[simp] theorem State.undefFlags_halted (ns : List FlagName) (s : State) : (State.undefFlags ns s).halted = s.halted := by
  induction ns generalizing s with
  | nil => rfl
  | cons n ns ih => simp [State.undefFlags, ih]
@[simp] theorem State.undefFlags_faultRec (ns : List FlagName) (s : State) : (State.undefFlags ns s).faultRec = s.faultRec := by
  induction ns generalizing s with
  | nil => rfl
  | cons n ns ih => simp [State.undefFlags, ih]
@[simp] theorem State.undefFlags_irq (ns : List FlagName) (s : State) : (State.undefFlags ns s).irq = s.irq := by
  induction ns generalizing s with
  | nil => rfl
  | cons n ns ih => simp [State.undefFlags, ih]
@[simp] theorem State.undefFlags_params (ns : List FlagName) (s : State) : (State.undefFlags ns s).params = s.params := by
  induction ns generalizing s with
  | nil => rfl
  | cons n ns ih => simp [State.undefFlags, ih]
@[simp] theorem State.undefFlags_busInstalled (ns : List FlagName) (s : State) : (State.undefFlags ns s).busInstalled = s.busInstalled := by
  induction ns generalizing s with
  | nil => rfl
  | cons n ns ih => simp [State.undefFlags, ih]

@[simp] theorem State.undefFlags_r16 (ns : List FlagName) (s : State) (r : Reg16) :
    (State.undefFlags ns s).r16 r = s.r16 r := by simp [State.r16]
@[simp] theorem State.undefFlags_r8 (ns : List FlagName) (s : State) (r : Reg8) :
    (State.undefFlags ns s).r8 r = s.r8 r := by simp [State.r8]
@[simp] theorem State.undefFlags_sreg (ns : List FlagName) (s : State) (g : SegReg) :
    (State.undefFlags ns s).sreg g = s.sreg g := by simp [State.sreg]
@[simp] theorem State.undefFlags_kindAt (ns : List FlagName) (s : State) (a : PAddr) :
    (State.undefFlags ns s).kindAt a = s.kindAt a := by simp [State.kindAt]
@[simp] theorem State.undefFlags_memByte (ns : List FlagName) (s : State) (a : PAddr) :
    (State.undefFlags ns s).memByte a = s.memByte a := by simp [State.memByte]
@[simp] theorem State.undefFlags_readByte (ns : List FlagName) (s : State) (a : PAddr) :
    (State.undefFlags ns s).readByte a = s.readByte a := by simp [State.readByte]
@[simp] theorem State.undefFlags_readWord (ns : List FlagName) (s : State) (a : PAddr) :
    (State.undefFlags ns s).readWord a = s.readWord a := by simp [State.readWord]

/-! ## The stack -/

/-- Physical addresses of two offsets in one segment are as far apart as the offsets
(20_memory.md R81). -/
theorem phys_eq (sg off : Word) : phys sg off = (sg.setWidth 20 <<< 4) + off.setWidth 20 := rfl

/-- Different offsets of a segment are different addresses (20_memory.md R81). -/
theorem phys_inj {sg a b : Word} (h : phys sg a = phys sg b) : a = b := by
  simp only [phys] at h
  have h1 : a.setWidth 20 = b.setWidth 20 := by bv_omega
  have h2 := congrArg BitVec.toNat h1
  simp only [BitVec.toNat_setWidth] at h2
  apply BitVec.eq_of_toNat_eq
  omega

/-- The byte after one offset's is another offset's only where that is the next one, not wrapping. -/
theorem phys_succ_eq {sg a b : Word} (h : phys sg a + 1#20 = phys sg b) : a + 1#16 = b ∧ a ≠ 0xFFFF#16 := by
  simp only [phys] at h
  have h1 : a.setWidth 20 + 1#20 = b.setWidth 20 := by bv_omega
  have h2 := congrArg BitVec.toNat h1
  simp only [BitVec.toNat_add, BitVec.toNat_setWidth, BitVec.toNat_ofNat] at h2
  constructor <;> bv_omega

/-- The address a push stores at (46_stack.md R450). -/
def State.pushAddr (s : State) : PAddr := phys (s.sreg .ss) (s.r16 .sp - 2)

/-- A push, said once: SP and one word of memory (46_stack.md R450). -/
theorem State.push_eq (s : State) (v : Word) :
    s.push v = (s.setR16 .sp (s.r16 .sp - 2)).writeWord s.pushAddr v := by
  simp [State.push, State.pushAddr]

@[simp] theorem State.push_r16 (s : State) (v : Word) (q : Reg16) :
    (s.push v).r16 q = if q = .sp then s.r16 .sp - 2 else s.r16 q := by
  rw [State.push_eq, State.writeWord_r16, State.r16_setR16]

/-- Every byte outside the pushed word is kept. -/
theorem State.push_memByte_ne (s : State) (v : Word) {a : PAddr} (h : a ≠ s.pushAddr)
    (h1 : a ≠ s.pushAddr + 1#20) : (s.push v).memByte a = s.memByte a := by
  rw [State.push_eq, State.memByte_writeWord_ne _ _ h h1, State.setR16_memByte]

/-- The pushed word's low byte, where RAM stands. -/
theorem State.push_memByte_low (s : State) (v : Word) (h : s.kindAt s.pushAddr = .ram) :
    (s.push v).memByte s.pushAddr = some (lowByte v) := by
  rw [State.push_eq]
  exact State.memByte_writeWord_low _ v h

/-- The pushed word's high byte, where RAM stands. -/
theorem State.push_memByte_high (s : State) (v : Word) (h : s.kindAt (s.pushAddr + 1#20) = .ram) :
    (s.push v).memByte (s.pushAddr + 1#20) = some (highByte v) := by
  rw [State.push_eq]
  exact State.memByte_writeWord_high _ v h

@[simp] theorem State.push_calls (s : State) (v : Word) :
    (s.push v).bus.calls = .writeWord s.pushAddr v :: s.bus.calls := by
  rw [State.push_eq]
  rfl

@[simp] theorem State.afterPop_calls (s : State) :
    s.afterPop.bus.calls = .readWord (phys (s.sreg .ss) (s.r16 .sp)) s.popValue :: s.bus.calls := rfl

@[simp] theorem State.afterPop_r16 (s : State) (q : Reg16) :
    s.afterPop.r16 q = if q = .sp then s.r16 .sp + 2 else s.r16 q := by
  rw [State.afterPop, State.r16_setR16, State.afterReadWord_r16]

end Sys2Proof.Machine
end

