-- ==== Sys2Proof/Laws/Stack.lean ====
section
/-! SUPPORT. Everything a pop, a return from interrupt and interrupt entry do, said once
(46_stack.md R451; 48_interrupt_instr.md R494; 60_exceptions.md R620). -/

namespace Sys2Proof.Machine

theorem State.popValue_eq (s : State) : s.popValue = s.readWord (phys (s.sreg .ss) (s.r16 .sp)) := rfl

@[simp] theorem State.popValue_setIp (s : State) (v : Word) : (s.setIp v).popValue = s.popValue := rfl

@[simp] theorem State.popValue_setFlags (s : State) (f : Flags) : (s.setFlags f).popValue = s.popValue := rfl

@[simp] theorem State.afterPop_setIp (s : State) (v : Word) : (s.setIp v).afterPop = s.afterPop.setIp v := rfl

@[simp] theorem State.afterPop_setFlags (s : State) (f : Flags) : (s.setFlags f).afterPop = s.afterPop.setFlags f :=
  rfl

/-- CS is not the stack's segment. -/
@[simp] theorem State.popValue_setCs (s : State) (v : Word) : (s.setSreg .cs v).popValue = s.popValue := rfl

/-- CS is not the stack's segment. -/
@[simp] theorem State.afterPop_setCs (s : State) (v : Word) : (s.setSreg .cs v).afterPop = s.afterPop.setSreg .cs v :=
  rfl

@[simp] theorem State.setIp_setIp (s : State) (v w : Word) : (s.setIp v).setIp w = s.setIp w := rfl

@[simp] theorem State.wf_popIp (s : State) : s.popIp.bus.wf = s.bus.wf := rfl

@[simp] theorem State.wf_popSreg (s : State) (g : SegReg) : (s.popSreg g).bus.wf = s.bus.wf := rfl

@[simp] theorem State.wf_popFlags (s : State) : s.popFlags.bus.wf = s.bus.wf := rfl

/-- RETF: two words popped, IP first (43_control_transfer.md R354). -/
theorem State.popIp_popSreg_eq (s : State) : s.popIp.popSreg .cs =
    (s.afterPop.afterPop.setIp s.popValue).setSreg .cs s.afterPop.popValue := by
  simp [State.popIp, State.popSreg]

/-- IRET: three words popped, IP, CS and FLAGS (48_interrupt_instr.md R494). -/
theorem State.returnFromInterrupt_eq (s : State) : s.returnFromInterrupt =
    ((s.afterPop.afterPop.afterPop.setIp s.popValue).setSreg .cs s.afterPop.popValue).setFlags
      (flagsOfPacked s.afterPop.afterPop.popValue) := by
  simp [State.returnFromInterrupt, State.popIp_popSreg_eq, State.popFlags]

@[simp] theorem State.wf_returnFromInterrupt (s : State) : s.returnFromInterrupt.bus.wf = s.bus.wf := by
  simp [State.returnFromInterrupt_eq]

/-! ## Words of one segment -/

/-- Two words of one segment at offsets 2 or more apart share no byte (20_memory.md R81, R82). -/
theorem words_apart {sg a b : Word} (h : a ≠ b) (h1 : a + 1#16 ≠ b) (h2 : b + 1#16 ≠ a) :
    phys sg a ≠ phys sg b ∧ phys sg a ≠ phys sg b + 1#20 ∧ phys sg a + 1#20 ≠ phys sg b ∧
      phys sg a + 1#20 ≠ phys sg b + 1#20 := by
  have inj : ∀ x y : PAddr, x + 1#20 = y + 1#20 → x = y := fun x y e => by bv_omega
  exact ⟨fun e => h (phys_inj e), fun e => h2 (phys_succ_eq e.symm).1, fun e => h1 (phys_succ_eq e).1,
    fun e => h (phys_inj (inj _ _ e))⟩

/-- A push of another word leaves a word of the stack's segment as it stands. -/
theorem State.push_memByte_apart (s : State) (v off : Word) (h : off ≠ s.r16 .sp - 2)
    (h1 : off + 1#16 ≠ s.r16 .sp - 2) (h2 : s.r16 .sp - 2 + 1#16 ≠ off) :
    (s.push v).memByte (phys (s.sreg .ss) off) = s.memByte (phys (s.sreg .ss) off) ∧
    (s.push v).memByte (phys (s.sreg .ss) off + 1#20) = s.memByte (phys (s.sreg .ss) off + 1#20) := by
  obtain ⟨a, b, c, d⟩ := words_apart (sg := s.sreg .ss) h h1 h2
  exact ⟨State.push_memByte_ne s v a b, State.push_memByte_ne s v c d⟩

/-! ## Interrupt entry -/

/-- The state of an interrupt entry, field by field (60_exceptions.md R620): the registers that change. -/
theorem State.serviceInterrupt_r16 (s : State) (n : Byte) (q : Reg16) :
    (s.serviceInterrupt n).r16 q = if q = .sp then s.r16 .sp - 6 else s.r16 q := by
  simp only [State.serviceInterrupt, State.setIp_r16, State.push_r16, State.setSreg_r16, State.setFlags_r16,
    State.afterReadWord_r16]
  split
  · simp only [if_true]; bv_omega
  · rfl

theorem State.serviceInterrupt_flags (s : State) (n : Byte) :
    (s.serviceInterrupt n).flags = { s.flags with tf := false, ief := false } := rfl

/-- Only CS of the segment registers changes. -/
theorem State.serviceInterrupt_sreg_ne (s : State) (n : Byte) {g : SegReg} (h : g ≠ .cs) :
    (s.serviceInterrupt n).sreg g = s.sreg g := by
  cases g <;> first | rfl | exact absurd rfl h

/-- The state of an entry after FLAGS and CS are pushed. -/
def State.entryHalf (s : State) : State :=
  ((s.push s.packed).setFlags { s.flags with tf := false, ief := false }).push (s.sreg .cs)

/-- An entry as its two halves (60_exceptions.md R620). -/
theorem State.serviceInterrupt_eq (s : State) (n : Byte) : s.serviceInterrupt n =
    let t := ((s.entryHalf.afterReadWord (vectorAddr n + 2)).setSreg .cs
      (s.entryHalf.readWord (vectorAddr n + 2))).push s.ip
    (t.afterReadWord (vectorAddr n)).setIp (t.readWord (vectorAddr n)) := rfl

theorem State.entryHalf_r16_sp (s : State) : s.entryHalf.r16 .sp = s.r16 .sp - 4 := by
  simp only [State.entryHalf, State.push_r16, State.setFlags_r16, if_true]
  bv_omega

/-- The calls of an entry, newest first, and where what they answer goes: CS and IP (60_exceptions.md R620). -/
theorem State.serviceInterrupt_calls (s : State) (n : Byte) :
    (s.serviceInterrupt n).bus.calls = [.readWord (vectorAddr n) (s.serviceInterrupt n).ip,
      .writeWord (phys (s.sreg .ss) (s.r16 .sp - 6)) s.ip,
      .readWord (vectorAddr n + 2) ((s.serviceInterrupt n).sreg .cs),
      .writeWord (phys (s.sreg .ss) (s.r16 .sp - 4)) (s.sreg .cs),
      .writeWord (phys (s.sreg .ss) (s.r16 .sp - 2)) s.packed] ++ s.bus.calls := by
  have e6 : s.r16 .sp - 4 - 2 = s.r16 .sp - 6 := by bv_omega
  have e4 : s.r16 .sp - 2 - 2 = s.r16 .sp - 4 := by bv_omega
  have hs : ∀ (t : State) (v : Word), (t.setSreg .cs v).sreg .ss = t.sreg .ss := fun _ _ => rfl
  have hss : s.entryHalf.sreg .ss = s.sreg .ss := rfl
  simp only [State.serviceInterrupt_eq, State.setIp_bus, State.afterReadWord_calls_self, State.push_calls,
    State.setSreg_bus, State.pushAddr, hs, State.afterReadWord_sreg, State.setSreg_r16, State.afterReadWord_r16,
    State.entryHalf_r16_sp, hss, e6, State.setIp_ip_self, State.setIp_sreg, State.push_sreg, State.sreg_setSreg_self]
  simp only [State.entryHalf, State.push_calls, State.setFlags_bus, State.pushAddr, State.setFlags_sreg,
    State.push_sreg, State.setFlags_r16, State.push_r16, if_true, e4, List.cons_append, List.nil_append]

/-- The three words on the stack after an entry, FLAGS, CS, IP downwards: each byte as written where RAM stands
(60_exceptions.md R620). -/
theorem State.serviceInterrupt_words (s : State) (n : Byte) (k v : Word)
    (h : k = 2 ∧ v = s.packed ∨ k = 4 ∧ v = s.sreg .cs ∨ k = 6 ∧ v = s.ip) :
    (s.kindAt (phys (s.sreg .ss) (s.r16 .sp - k)) = .ram →
      (s.serviceInterrupt n).memByte (phys (s.sreg .ss) (s.r16 .sp - k)) = some (lowByte v)) ∧
    (s.kindAt (phys (s.sreg .ss) (s.r16 .sp - k) + 1#20) = .ram →
      (s.serviceInterrupt n).memByte (phys (s.sreg .ss) (s.r16 .sp - k) + 1#20) = some (highByte v)) := by
  have e6 : s.r16 .sp - 4 - 2 = s.r16 .sp - 6 := by bv_omega
  have e4 : s.r16 .sp - 2 - 2 = s.r16 .sp - 4 := by bv_omega
  have hs : ∀ (t : State) (v : Word), (t.setSreg .cs v).sreg .ss = t.sreg .ss := fun _ _ => rfl
  have hss : s.entryHalf.sreg .ss = s.sreg .ss := rfl
  generalize ht : (s.entryHalf.afterReadWord (vectorAddr n + 2)).setSreg .cs
    (s.entryHalf.readWord (vectorAddr n + 2)) = t
  have tsp : t.r16 .sp = s.r16 .sp - 4 := by
    rw [← ht, State.setSreg_r16, State.afterReadWord_r16, State.entryHalf_r16_sp]
  have tss : t.sreg .ss = s.sreg .ss := by rw [← ht, hs, State.afterReadWord_sreg, hss]
  have tk : ∀ a, t.kindAt a = s.kindAt a := fun a => by rw [← ht]; simp [State.entryHalf]
  have tm : ∀ a, t.memByte a = s.entryHalf.memByte a := fun a => by rw [← ht]; simp
  have hm : ∀ a, (s.serviceInterrupt n).memByte a = (t.push s.ip).memByte a := fun a => by
    rw [State.serviceInterrupt_eq, ht]
    simp
  have tp : t.pushAddr = phys (s.sreg .ss) (s.r16 .sp - 6) := by rw [State.pushAddr, tsp, tss, e6]
  generalize hu : (s.push s.packed).setFlags { s.flags with tf := false, ief := false } = u
  have usp : u.r16 .sp = s.r16 .sp - 2 := by rw [← hu]; simp
  have uss : u.sreg .ss = s.sreg .ss := by rw [← hu]; simp
  have up : u.pushAddr = phys (s.sreg .ss) (s.r16 .sp - 4) := by rw [State.pushAddr, usp, uss, e4]
  have uk : ∀ a, u.kindAt a = s.kindAt a := fun a => by rw [← hu]; simp
  have he : s.entryHalf = u.push (s.sreg .cs) := by rw [← hu]; rfl
  have um : ∀ a, u.memByte a = (s.push s.packed).memByte a := fun a => by rw [← hu]; simp
  rcases h with ⟨rfl, rfl⟩ | ⟨rfl, rfl⟩ | ⟨rfl, rfl⟩
  · have p1 := State.push_memByte_apart t s.ip (s.r16 .sp - 2) (by rw [tsp]; bv_omega) (by rw [tsp]; bv_omega)
      (by rw [tsp]; bv_omega)
    have p2 := State.push_memByte_apart u (s.sreg .cs) (s.r16 .sp - 2) (by rw [usp]; bv_omega)
      (by rw [usp]; bv_omega) (by rw [usp]; bv_omega)
    rw [tss] at p1
    rw [uss, ← he] at p2
    exact ⟨fun h => by rw [hm, p1.1, tm, p2.1, um]; exact State.push_memByte_low s _ h,
      fun h => by rw [hm, p1.2, tm, p2.2, um]; exact State.push_memByte_high s _ h⟩
  · have p1 := State.push_memByte_apart t s.ip (s.r16 .sp - 4) (by rw [tsp]; bv_omega) (by rw [tsp]; bv_omega)
      (by rw [tsp]; bv_omega)
    rw [tss] at p1
    constructor
    · intro h
      rw [hm, p1.1, tm, he, ← up]
      exact State.push_memByte_low u _ (by rw [uk, up]; exact h)
    · intro h
      rw [hm, p1.2, tm, he, ← up]
      exact State.push_memByte_high u _ (by rw [uk, up]; exact h)
  · constructor
    · intro h
      rw [hm, ← tp]
      exact State.push_memByte_low t _ (by rw [tk, tp]; exact h)
    · intro h
      rw [hm, ← tp]
      exact State.push_memByte_high t _ (by rw [tk, tp]; exact h)

/-- Every byte outside the three words is kept, in the state after the first two of them too. -/
theorem State.entry_memByte_ne (s : State) (n : Byte) {a : PAddr}
    (h : ∀ k : Word, k = 2 ∨ k = 4 ∨ k = 6 →
      a ≠ phys (s.sreg .ss) (s.r16 .sp - k) ∧ a ≠ phys (s.sreg .ss) (s.r16 .sp - k) + 1#20) :
    s.entryHalf.memByte a = s.memByte a ∧
    (((s.entryHalf.afterReadWord (vectorAddr n + 2)).setSreg .cs
      (s.entryHalf.readWord (vectorAddr n + 2))).push s.ip).memByte a = s.memByte a ∧
    (s.serviceInterrupt n).memByte a = s.memByte a := by
  have e4 : s.r16 .sp - 2 - 2 = s.r16 .sp - 4 := by bv_omega
  have e6 : s.r16 .sp - 4 - 2 = s.r16 .sp - 6 := by bv_omega
  have hs : ∀ (t : State) (v : Word), (t.setSreg .cs v).sreg .ss = t.sreg .ss := fun _ _ => rfl
  have hss : s.entryHalf.sreg .ss = s.sreg .ss := rfl
  obtain ⟨a1, a2⟩ := h 2 (by simp)
  obtain ⟨b1, b2⟩ := h 4 (by simp)
  obtain ⟨c1, c2⟩ := h 6 (by simp)
  have k1 : s.entryHalf.memByte a = s.memByte a := by
    rw [State.entryHalf, State.push_memByte_ne, State.setFlags_memByte, State.push_memByte_ne _ _ a1 a2]
    · rw [← e4] at b1; simpa [State.pushAddr] using b1
    · rw [← e4] at b2; simpa [State.pushAddr] using b2
  have k2 : (((s.entryHalf.afterReadWord (vectorAddr n + 2)).setSreg .cs
      (s.entryHalf.readWord (vectorAddr n + 2))).push s.ip).memByte a = s.memByte a := by
    rw [State.push_memByte_ne]
    · simp [k1]
    · rw [← e6] at c1; simpa [State.pushAddr, hs, hss, State.entryHalf_r16_sp] using c1
    · rw [← e6] at c2; simpa [State.pushAddr, hs, hss, State.entryHalf_r16_sp] using c2
  exact ⟨k1, k2, by rw [State.serviceInterrupt_eq]; simpa using k2⟩

/-- IP and CS after an entry are the vector table's words, when memory holds them and none of the vector's bytes is
stored by the entry itself (60_exceptions.md R620, R621). -/
theorem State.serviceInterrupt_vector (s : State) (n : Byte)
    (h : ∀ k : Word, k = 2 ∨ k = 4 ∨ k = 6 → ∀ j : PAddr, j = 0 ∨ j = 1 ∨ j = 2 ∨ j = 3 →
      vectorAddr n + j ≠ phys (s.sreg .ss) (s.r16 .sp - k) ∧
      vectorAddr n + j ≠ phys (s.sreg .ss) (s.r16 .sp - k) + 1#20) {lo hi : Byte} :
    (s.memByte (vectorAddr n) = some lo → s.memByte (vectorAddr n + 1#20) = some hi →
      (s.serviceInterrupt n).ip = leWord lo hi) ∧
    (s.memByte (vectorAddr n + 2) = some lo → s.memByte (vectorAddr n + 3) = some hi →
      (s.serviceInterrupt n).sreg .cs = leWord lo hi) := by
  have z : vectorAddr n + 0 = vectorAddr n := by bv_omega
  have two : vectorAddr n + 2 + 1#20 = vectorAddr n + 3 := by bv_omega
  have hk := fun j hj => State.entry_memByte_ne s n (a := vectorAddr n + j) fun k hk => h k hk j hj
  constructor
  · intro h0 h1
    rw [State.serviceInterrupt_eq]
    have k0 := (hk 0 (by simp)).2.1
    rw [z] at k0
    exact State.readWord_of_memByte (k0.trans h0) ((hk 1 (by simp)).2.1.trans h1)
  · intro h0 h1
    have k1 := (hk 3 (by simp)).1
    rw [← two] at k1 h1
    exact State.readWord_of_memByte ((hk 2 (by simp)).1.trans h0) (k1.trans h1)

end Sys2Proof.Machine
end

