-- ==== Sys2Proof/Laws/Footprint.lean ====
section
/-! SUPPORT. What each shared operation may touch, said once: the word registers, byte halves, bytes of memory
and flags outside its footprint are kept, the canonical form of memory is kept, and the rest of the state but the
bus's answers and calls is kept. A frame proof chains these by `trans` and never unfolds an operation. -/

namespace Sys2Proof.Machine

/-- From `s` to `t` nothing changes outside the word registers `rs`, the byte registers `hs`, the bytes `ws` and
the flags `fs`, and the memory stays in canonical form. -/
structure Touches (rs : List Reg16) (hs : List Reg8) (ws : List PAddr) (fs : List FlagName) (s t : State) :
    Prop where
  r16 : ∀ r, r ∉ rs → (∀ h ∈ hs, parentReg h ≠ r) → t.r16 r = s.r16 r
  r8 : ∀ h, parentReg h ∉ rs → h ∉ hs → t.r8 h = s.r8 h
  byte : ∀ pa, pa ∉ ws → t.memByte pa = s.memByte pa
  flag : ∀ n, n ∉ fs → t.flags.get n = s.flags.get n
  wf : s.bus.wf = true → t.bus.wf = true

/-- From `s` to `t` nothing changes but registers, flags, memory, the answers ready for memory, the calls made,
which only grow, and the count of undefined flags drawn, which only `P_UNDEF_FLAGS = draw` moves. -/
structure Kept (s t : State) : Prop where
  segs : t.segs = s.segs
  ip : t.ip = s.ip
  segOverride : t.segOverride = s.segOverride
  rep : t.rep = s.rep
  lock : t.lock = s.lock
  opCs : t.opCs = s.opCs
  opIp : t.opIp = s.opIp
  halted : t.halted = s.halted
  faultRec : t.faultRec = s.faultRec
  irq : t.irq = s.irq
  windows : t.bus.windows = s.bus.windows
  portIn : t.bus.portIn = s.bus.portIn
  calls : ∃ cs, t.bus.calls = cs ++ s.bus.calls
  params : t.params = s.params
  busInstalled : t.busInstalled = s.busInstalled
  draws : s.params.undefFlags = .unchanged → t.draws = s.draws

variable {rs rs' : List Reg16} {hs hs' : List Reg8} {ws ws' : List PAddr} {fs fs' : List FlagName}
variable {s t u : State}

/-! ## Footprints compose -/

theorem Touches.refl (s : State) : Touches rs hs ws fs s s :=
  ⟨fun _ _ _ => rfl, fun _ _ _ => rfl, fun _ _ => rfl, fun _ _ => rfl, id⟩

theorem Touches.trans (h : Touches rs hs ws fs s t) (k : Touches rs hs ws fs t u) : Touches rs hs ws fs s u :=
  ⟨fun r a b => (k.r16 r a b).trans (h.r16 r a b), fun r a b => (k.r8 r a b).trans (h.r8 r a b),
    fun p a => (k.byte p a).trans (h.byte p a), fun n a => (k.flag n a).trans (h.flag n a), k.wf ∘ h.wf⟩

theorem Touches.mono (h : Touches rs hs ws fs s t) (hr : rs ⊆ rs') (hh : hs ⊆ hs') (hw : ws ⊆ ws')
    (hf : fs ⊆ fs') : Touches rs' hs' ws' fs' s t :=
  ⟨fun r a b => h.r16 r (fun c => a (hr c)) fun k c => b k (hh c),
    fun r a b => h.r8 r (fun c => a (hr c)) fun c => b (hh c), fun p a => h.byte p fun c => a (hw c),
    fun n a => h.flag n fun c => a (hf c), h.wf⟩

theorem Kept.refl (s : State) : Kept s s :=
  ⟨rfl, rfl, rfl, rfl, rfl, rfl, rfl, rfl, rfl, rfl, rfl, rfl, ⟨[], rfl⟩, rfl, rfl, fun _ => rfl⟩

theorem Kept.trans (h : Kept s t) (k : Kept t u) : Kept s u :=
  ⟨k.segs.trans h.segs, k.ip.trans h.ip, k.segOverride.trans h.segOverride, k.rep.trans h.rep,
    k.lock.trans h.lock, k.opCs.trans h.opCs, k.opIp.trans h.opIp, k.halted.trans h.halted,
    k.faultRec.trans h.faultRec, k.irq.trans h.irq, k.windows.trans h.windows, k.portIn.trans h.portIn,
    h.calls.elim fun cs e => k.calls.elim fun ds f => ⟨ds ++ cs, by rw [f, e, List.append_assoc]⟩,
    k.params.trans h.params, k.busInstalled.trans h.busInstalled,
    fun e => (k.draws (by rw [h.params]; exact e)).trans (h.draws e)⟩

/-! ## The named updates -/

theorem setR16_touches (s : State) {r : Reg16} (v : Word) (h : r ∈ rs) : Touches rs hs ws fs s (s.setR16 r v) where
  r16 q a _ := State.r16_setR16_ne s v (by rintro rfl; exact a h)
  r8 q a _ := by
    rw [State.r8_setR16, if_neg]
    rintro e
    exact a (e ▸ h)
  byte _ _ := rfl
  flag _ _ := rfl
  wf := id

theorem setR8_touches (s : State) {r : Reg8} (v : Byte) (h : r ∈ hs) : Touches rs hs ws fs s (s.setR8 r v) where
  r16 _ _ b := State.r16_setR8_ne s v fun e => b r h e.symm
  r8 _ _ b := State.r8_setR8_ne s v (by rintro rfl; exact b h)
  byte _ _ := rfl
  flag _ _ := rfl
  wf := id

theorem writeByte_touches (s : State) {pa : PAddr} (v : Byte) (h : pa ∈ ws) :
    Touches rs hs ws fs s (s.writeByte pa v) where
  r16 _ _ _ := rfl
  r8 _ _ _ := rfl
  byte _ a := State.memByte_writeByte_ne s v (by rintro rfl; exact a h)
  flag _ _ := rfl
  wf := State.wf_writeByte s pa v

theorem writeWord_touches (s : State) {pa : PAddr} (v : Word) (h : pa ∈ ws) (h1 : pa + 1 ∈ ws) :
    Touches rs hs ws fs s (s.writeWord pa v) where
  r16 _ _ _ := rfl
  r8 _ _ _ := rfl
  byte _ a := State.memByte_writeWord_ne s v (by rintro rfl; exact a h) (by rintro rfl; exact a h1)
  flag _ _ := rfl
  wf := State.wf_writeWord s pa v

theorem setFlags_touches (s : State) (f : Flags) (h : ∀ n, n ∉ fs → f.get n = s.flags.get n) :
    Touches rs hs ws fs s (s.setFlags f) :=
  ⟨fun _ _ _ => rfl, fun _ _ _ => rfl, fun _ _ => rfl, h, id⟩

theorem undefFlag_touches (s : State) {n : FlagName} (h : n ∈ fs) : Touches rs hs ws fs s (s.undefFlag n) where
  r16 _ _ _ := by simp
  r8 _ _ _ := by simp
  byte _ _ := by simp
  flag k a := State.get_undefFlag_ne s (by rintro rfl; exact a h)
  wf := by simp

theorem undefFlags_touches (ns : List FlagName) (s : State) (h : ns ⊆ fs) :
    Touches rs hs ws fs s (State.undefFlags ns s) where
  r16 _ _ _ := by simp
  r8 _ _ _ := by simp
  byte _ _ := by simp
  flag k a := State.get_undefFlags_ne ns s fun c => a (h c)
  wf := by simp

theorem decodedMem_touches (s : State) (p : MemOp) : Touches rs hs ws fs s (s.decodedMem p) := by
  rw [State.decodedMem_eq]
  exact ⟨fun _ _ _ => rfl, fun _ _ _ => rfl, fun _ _ => rfl, fun _ _ => rfl, id⟩

theorem decoded_touches {R : Type} (s : State) (m : Rm R) : Touches rs hs ws fs s (s.decoded m) := by
  cases m with
  | reg r => exact Touches.refl s
  | mem p => exact decodedMem_touches s p

/-- An update that leaves the bus and the rest. -/
theorem Kept.of_bus (h1 : t.segs = s.segs) (h2 : t.ip = s.ip) (h3 : t.segOverride = s.segOverride)
    (h4 : t.rep = s.rep) (h5 : t.lock = s.lock) (h6 : t.opCs = s.opCs) (h7 : t.opIp = s.opIp)
    (h8 : t.halted = s.halted) (h9 : t.faultRec = s.faultRec) (h10 : t.irq = s.irq) (h11 : t.bus = s.bus)
    (h12 : t.params = s.params) (h13 : t.busInstalled = s.busInstalled)
    (h14 : s.params.undefFlags = .unchanged → t.draws = s.draws) : Kept s t :=
  ⟨h1, h2, h3, h4, h5, h6, h7, h8, h9, h10, by rw [h11], by rw [h11], ⟨[], by rw [h11]; rfl⟩, h12, h13, h14⟩

theorem setR16_kept (s : State) (r : Reg16) (v : Word) : Kept s (s.setR16 r v) := by
  apply Kept.of_bus <;> simp
theorem setR8_kept (s : State) (r : Reg8) (v : Byte) : Kept s (s.setR8 r v) := by apply Kept.of_bus <;> simp
theorem setFlags_kept (s : State) (f : Flags) : Kept s (s.setFlags f) := by apply Kept.of_bus <;> simp
theorem afterReadByte_kept (s : State) (pa : PAddr) : Kept s (s.afterReadByte pa) := by
  constructor
  case calls => exact ⟨[_], rfl⟩
  all_goals simp
theorem afterReadWord_kept (s : State) (pa : PAddr) : Kept s (s.afterReadWord pa) := by
  constructor
  case calls => exact ⟨[_], rfl⟩
  all_goals simp
theorem writeByte_kept (s : State) (pa : PAddr) (v : Byte) : Kept s (s.writeByte pa v) := by
  constructor
  case calls => exact ⟨[_], rfl⟩
  all_goals simp
theorem writeWord_kept (s : State) (pa : PAddr) (v : Word) : Kept s (s.writeWord pa v) := by
  constructor
  case calls => exact ⟨[_], rfl⟩
  all_goals simp
theorem writeOp8_kept (s : State) (x : Operand Reg8) (v : Byte) : Kept s (s.writeOp8 x v) := by
  cases x with
  | reg r => exact setR8_kept _ _ _
  | mem ea => exact writeByte_kept _ _ _
theorem writeOp16_kept (s : State) (x : Operand Reg16) (v : Word) : Kept s (s.writeOp16 x v) := by
  cases x with
  | reg r => exact setR16_kept _ _ _
  | mem ea => exact writeWord_kept _ _ _
theorem afterOp8_kept (s : State) (x : Operand Reg8) : Kept s (s.afterOp8 x) := by
  cases x with
  | reg r => exact Kept.refl _
  | mem ea => exact afterReadByte_kept _ _
theorem afterOp16_kept (s : State) (x : Operand Reg16) : Kept s (s.afterOp16 x) := by
  cases x with
  | reg r => exact Kept.refl _
  | mem ea => exact afterReadWord_kept _ _
theorem afterImm8_kept (s : State) : Kept s s.afterImm8 := afterReadByte_kept _ _
theorem afterImm16_kept (s : State) : Kept s s.afterImm16 := (afterReadByte_kept _ _).trans (afterReadByte_kept _ _)
theorem afterFar_kept (s : State) (ea : Word) : Kept s (s.afterFar ea) :=
  (afterReadWord_kept _ _).trans (afterReadWord_kept _ _)

theorem undefFlag_kept (s : State) (n : FlagName) : Kept s (s.undefFlag n) := by
  apply Kept.of_bus
  case h14 => intro h; rw [State.undefFlag_unchanged s n h]
  all_goals simp

theorem undefFlags_kept : ∀ (ns : List FlagName) (s : State), Kept s (State.undefFlags ns s)
  | [], s => Kept.refl s
  | n :: ns, s => (undefFlag_kept s n).trans (undefFlags_kept ns _)

/-- A state that shares registers, what memory holds, and flags is touched nowhere. -/
theorem Touches.of_mem (h1 : t.regs = s.regs) (h2 : t.bus.mem = s.bus.mem) (h3 : t.flags = s.flags)
    (h4 : t.bus.windows = s.bus.windows) : Touches rs hs ws fs s t where
  r16 _ _ _ := by simp [State.r16, h1]
  r8 _ _ _ := by simp [State.r8, h1]
  byte pa _ := by
    simp only [State.memByte, Bus.memByte, Bus.kindAt, h2, h4]
    by_cases h : kindIn s.bus.windows pa.toNat = .device <;> simp [h]
  flag _ _ := by rw [h3]
  wf h := by simpa [Bus.wf, h2, h4] using h

/-- A state that shares registers, the bus and flags is touched nowhere. -/
theorem Touches.of_eq (h1 : t.regs = s.regs) (h2 : t.bus = s.bus) (h3 : t.flags = s.flags) :
    Touches rs hs ws fs s t := Touches.of_mem h1 (by rw [h2]) h3 (by rw [h2])

theorem afterReadByte_touches (s : State) (pa : PAddr) : Touches rs hs ws fs s (s.afterReadByte pa) :=
  Touches.of_mem rfl rfl rfl rfl

theorem afterReadWord_touches (s : State) (pa : PAddr) : Touches rs hs ws fs s (s.afterReadWord pa) :=
  Touches.of_mem rfl rfl rfl rfl

theorem afterOp8_touches (s : State) (x : Operand Reg8) : Touches rs hs ws fs s (s.afterOp8 x) := by
  cases x with
  | reg r => exact Touches.refl _
  | mem ea => exact afterReadByte_touches _ _

theorem afterOp16_touches (s : State) (x : Operand Reg16) : Touches rs hs ws fs s (s.afterOp16 x) := by
  cases x with
  | reg r => exact Touches.refl _
  | mem ea => exact afterReadWord_touches _ _

theorem loaded8_touches (s : State) (m : Rm Reg8) : Touches rs hs ws fs s (s.loaded8 m) :=
  (decoded_touches s m).trans (afterOp8_touches _ _)

theorem loaded16_touches (s : State) (m : Rm Reg16) : Touches rs hs ws fs s (s.loaded16 m) :=
  (decoded_touches s m).trans (afterOp16_touches _ _)

theorem afterFar_touches (s : State) (ea : Word) : Touches rs hs ws fs s (s.afterFar ea) :=
  (afterReadWord_touches _ _).trans (afterReadWord_touches _ _)

theorem afterImm8_touches (s : State) : Touches rs hs ws fs s s.afterImm8 := afterReadByte_touches _ _

theorem afterImm16_touches (s : State) : Touches rs hs ws fs s s.afterImm16 :=
  (afterReadByte_touches _ _).trans (afterReadByte_touches _ _)

theorem setSreg_touches (s : State) (g : SegReg) (v : Word) : Touches rs hs ws fs s (s.setSreg g v) :=
  Touches.of_eq rfl rfl rfl

theorem setIp_touches (s : State) (v : Word) : Touches rs hs ws fs s (s.setIp v) := Touches.of_eq rfl rfl rfl

theorem branch_touches (s : State) (c : Bool) (d : Word) : Touches rs hs ws fs s (s.branch c d) := by
  unfold State.branch
  split
  · exact setIp_touches _ _
  · exact Touches.refl _

theorem afterPop_touches (s : State) (h : Reg16.sp ∈ rs) : Touches rs hs ws fs s s.afterPop :=
  (afterReadWord_touches s _).trans (setR16_touches _ _ h)

theorem popIp_touches (s : State) (h : Reg16.sp ∈ rs) : Touches rs hs ws fs s s.popIp :=
  (afterPop_touches s h).trans (setIp_touches _ _)

theorem popSreg_touches (s : State) (g : SegReg) (h : Reg16.sp ∈ rs) : Touches rs hs ws fs s (s.popSreg g) :=
  (afterPop_touches s h).trans (setSreg_touches _ _ _)

theorem popFlags_touches (s : State) (h : Reg16.sp ∈ rs) :
    Touches rs hs ws [.cf, .pf, .af, .zf, .sf, .tf, .ief, .df, .ovf] s s.popFlags :=
  (afterPop_touches s h).trans (setFlags_touches _ _ (by intro n hn; cases n <;> simp at hn))

theorem afterIoRead_touches (s : State) (p : Word) : Touches rs hs ws fs s (s.afterIoRead p) :=
  Touches.of_mem rfl rfl rfl rfl

/-! ## Operands -/

/-- A byte operand written in a state that addresses data as the decoded one does. -/
theorem writeOp8_touches (s t : State) (m : Rm Reg8) (v : Byte) (h : t.dataAddr = (s.decoded m).dataAddr) :
    Touches [] (rmReg8 m) (s.rmBytes8 m) fs t (t.writeOp8 (s.operand m) v) := by
  cases m with
  | reg r => exact setR8_touches _ _ (by simp [rmReg8])
  | mem p =>
    show Touches _ _ [s.memAddr p] _ _ (t.writeByte (t.dataAddr (s.ea p)) v)
    rw [h]
    exact writeByte_touches _ _ (List.mem_singleton.mpr rfl)

/-- A word operand written in a state that addresses data as the decoded one does. -/
theorem writeOp16_touches (s t : State) (m : Rm Reg16) (v : Word) (h : t.dataAddr = (s.decoded m).dataAddr) :
    Touches (rmReg16 m) [] (s.rmBytes16 m) fs t (t.writeOp16 (s.operand m) v) := by
  cases m with
  | reg r => exact setR16_touches _ _ (by simp [rmReg16])
  | mem p =>
    show Touches _ _ (wordBytes (s.memAddr p)) _ _ (t.writeWord (t.dataAddr (s.ea p)) v)
    rw [h]
    exact writeWord_touches _ _ (List.mem_cons_self ..) (List.mem_cons_of_mem _ (List.mem_cons_self ..))

/-! ## Flags -/

theorem addFlags_get {w : Nat} (mode : AfMode) (a b : BitVec w) (c : Bool) (f : Flags) {n : FlagName}
    (h : n ∉ arithFlags) : (addFlags mode a b c f).get n = f.get n := by
  cases n <;> cases mode <;> first | rfl | simp [arithFlags] at h

theorem subFlags_get {w : Nat} (mode : AfMode) (a b : BitVec w) (c : Bool) (f : Flags) {n : FlagName}
    (h : n ∉ arithFlags) : (subFlags mode a b c f).get n = f.get n := by
  cases n <;> cases mode <;> first | rfl | simp [arithFlags] at h

theorem logicFlags_get {w : Nat} (r : BitVec w) (f : Flags) {n : FlagName}
    (h : n ∉ [FlagName.cf, .ovf, .sf, .zf, .pf]) : (logicFlags r f).get n = f.get n := by
  cases n <;> first | rfl | simp at h

theorem incFlags_get {w : Nat} (mode : AfMode) (a : BitVec w) (f : Flags) {n : FlagName}
    (h : n ∉ [FlagName.ovf, .sf, .zf, .pf, .af]) : (incFlags mode a f).get n = f.get n := by
  cases n <;> cases mode <;> first | rfl | simp at h

theorem decFlags_get {w : Nat} (mode : AfMode) (a : BitVec w) (f : Flags) {n : FlagName}
    (h : n ∉ [FlagName.ovf, .sf, .zf, .pf, .af]) : (decFlags mode a f).get n = f.get n := by
  cases n <;> cases mode <;> first | rfl | simp at h

/-- The flags an ALU operation writes (41_arith_logic.md R251 to R253). -/
def AluOp.writes (op : AluOp) : List FlagName :=
  match op with
  | .add | .adc | .sbb | .sub | .cmp => arithFlags
  | .or | .and | .xor => [.cf, .ovf, .sf, .zf, .pf]

theorem AluOp.flags_get {w : Nat} (op : AluOp) (mode : AfMode) (a b : BitVec w) (f : Flags) {n : FlagName}
    (h : n ∉ op.writes) : (op.flags mode a b f).get n = f.get n := by
  cases op <;> first
    | exact addFlags_get _ _ _ _ _ h
    | exact subFlags_get _ _ _ _ _ h
    | exact logicFlags_get _ _ h

/-- The flags a shift or rotate writes, the undefined ones among them (45_shift_rotate.md R422). -/
def ShiftOp.writes (op : ShiftOp) : List FlagName :=
  if op.isShift then arithFlags else [.cf, .ovf]

/-- The flags of a shift or rotate as a chain of updates. -/
theorem shiftFlags_eq {w : Nat} (s : State) (op : ShiftOp) (n : Nat) (v : BitVec w) (x : BitVec w × Bool) :
    ∃ s2 : State, (n = 1 ∧ s2 = s.setFlags { s.flags with cf := x.2, ovf := op.of1 v x.1 x.2 } ∨
      n ≠ 1 ∧ s2 = (s.setFlags { s.flags with cf := x.2 }).undefFlag .ovf) ∧
    s.shiftFlags op n v x = if op.isShift then (s2.setFlags (s2.flags.setSZP x.1)).undefFlag .af else s2 := by
  by_cases h : n = 1
  · exact ⟨_, .inl ⟨h, rfl⟩, by simp only [State.shiftFlags, if_pos h]; rfl⟩
  · exact ⟨_, .inr ⟨h, rfl⟩, by simp only [State.shiftFlags, if_neg h]⟩

theorem shiftFlags_touches {w : Nat} (s : State) (op : ShiftOp) (n : Nat) (v : BitVec w) (x : BitVec w × Bool)
    (h : op.writes ⊆ fs) : Touches rs hs ws fs s (s.shiftFlags op n v x) := by
  have cfM : FlagName.cf ∈ fs := h (by cases op <;> simp [ShiftOp.writes, ShiftOp.isShift, arithFlags])
  have ofM : FlagName.ovf ∈ fs := h (by cases op <;> simp [ShiftOp.writes, ShiftOp.isShift, arithFlags])
  obtain ⟨s2, h2, e⟩ := shiftFlags_eq s op n v x
  have t2 : Touches rs hs ws fs s s2 := by
    rcases h2 with ⟨-, rfl⟩ | ⟨-, rfl⟩
    · exact setFlags_touches _ _ fun k hk => by cases k <;> first | rfl | exact absurd cfM hk | exact absurd ofM hk
    · exact (setFlags_touches _ _ fun k hk => by cases k <;> first | rfl | exact absurd cfM hk).trans
        (undefFlag_touches _ ofM)
  rw [e]
  split
  · next c =>
    have ew : arithFlags ⊆ fs := by simpa [ShiftOp.writes, c] using h
    refine (t2.trans (setFlags_touches _ _ fun k hk => ?_)).trans (undefFlag_touches _ (ew (by simp [arithFlags])))
    cases k
    case zf | sf | pf => exact absurd (ew (by simp [arithFlags])) hk
    all_goals rfl
  · exact t2

theorem shiftFlags_kept {w : Nat} (s : State) (op : ShiftOp) (n : Nat) (v : BitVec w) (x : BitVec w × Bool) :
    Kept s (s.shiftFlags op n v x) := by
  obtain ⟨s2, h2, e⟩ := shiftFlags_eq s op n v x
  have t2 : Kept s s2 := by
    rcases h2 with ⟨-, rfl⟩ | ⟨-, rfl⟩
    · exact setFlags_kept _ _
    · exact (setFlags_kept _ _).trans (undefFlag_kept _ _)
  rw [e]
  split
  · exact (t2.trans (setFlags_kept _ _)).trans (undefFlag_kept _ _)
  · exact t2

/-! ## The stack and interrupt entry -/

theorem push_touches (s : State) (v : Word) (hr : Reg16.sp ∈ rs)
    (hw : wordBytes (phys (s.sreg .ss) (s.r16 .sp - 2)) ⊆ ws) : Touches rs hs ws fs s (s.push v) :=
  (setR16_touches s _ hr).trans
    (writeWord_touches _ _ (hw (by simp [wordBytes])) (hw (by simp [wordBytes])))

theorem pushBytes_one (s : State) : s.pushBytes 1 = wordBytes (phys (s.sreg .ss) (s.r16 .sp - 2)) := by
  simp [State.pushBytes]

/-- Two pushes, as a far call makes them. -/
theorem push_push_touches (s : State) (v w : Word) (hr : Reg16.sp ∈ rs) :
    Touches rs hs (s.pushBytes 2) fs s ((s.push v).push w) := by
  refine (push_touches s v hr (by simp [State.pushBytes])).trans (push_touches _ _ hr ?_)
  have e : s.r16 .sp - 2#16 - 2#16 = s.r16 .sp - 4#16 := by bv_omega
  simp [State.push_r16, State.pushBytes, e]

theorem serviceInterrupt_touches (s : State) (n : Byte) :
    Touches [.sp] [] (s.pushBytes 3) [.tf, .ief] s (s.serviceInterrupt n) where
  r16 q a _ := by
    rw [State.serviceInterrupt_r16, if_neg]
    rintro rfl
    simp at a
  r8 q a _ := by
    have e : parentReg q ≠ .sp := by simpa using a
    rw [State.r8_eq, State.r8_eq, State.serviceInterrupt_r16, if_neg e]
  byte pa a := by
    refine (State.entry_memByte_ne s n fun k hk => ?_).2.2
    constructor
    · rintro rfl
      apply a
      rcases hk with rfl | rfl | rfl <;> simp [State.pushBytes, wordBytes]
    · rintro rfl
      apply a
      rcases hk with rfl | rfl | rfl <;> simp [State.pushBytes, wordBytes]
  flag k a := by
    rw [State.serviceInterrupt_flags]
    cases k <;> first | rfl | simp at a
  wf := State.wf_serviceInterrupt s n

end Sys2Proof.Machine
end

