-- ==== Sys2Proof/Laws/Bus.lean ====
section
/-! SUPPORT. What reading and writing an operand, a push and a pop do to the bus, in the terms the statements use: the
calls made and what memory then holds (20_memory.md R82, R86, R93; 30_encoding.md R137; 46_stack.md R450, R451). -/

namespace Sys2Proof.Machine

variable {s t u : State}

/-! ## Held bytes and words -/

theorem holdsByte_writeByte (s : State) (pa : PAddr) (v : Byte) : (s.writeByte pa v).HoldsByte pa v :=
  fun h => State.memByte_writeByte_ram s v h

theorem holdsWord_writeWord (s : State) (pa : PAddr) (v : Word) : (s.writeWord pa v).HoldsWord pa v :=
  ⟨fun h => State.memByte_writeWord_low s v h, fun h => State.memByte_writeWord_high s v h⟩

/-- What is held stays held under an update that keeps the byte and what stands behind it. -/
theorem State.HoldsByte.mono {pa : PAddr} {v : Byte} (h : t.HoldsByte pa v) (hk : u.kindAt pa = t.kindAt pa)
    (hb : u.memByte pa = t.memByte pa) : u.HoldsByte pa v := fun k => hb.trans (h (hk.symm.trans k))

/-- What is held stays held under an update that keeps the bus. -/
theorem State.HoldsByte.of_bus {pa : PAddr} {v : Byte} (h : t.HoldsByte pa v) (hb : u.bus = t.bus) :
    u.HoldsByte pa v := h.mono (by simp [State.kindAt, hb]) (by simp [State.memByte, hb])

/-- What is held stays held under an update that keeps the bus. -/
theorem State.HoldsWord.of_bus {pa : PAddr} {v : Word} (h : t.HoldsWord pa v) (hb : u.bus = t.bus) :
    u.HoldsWord pa v := ⟨h.1.of_bus hb, h.2.of_bus hb⟩

/-- A pushed word is held where it was pushed. -/
theorem holdsWord_push (s : State) (v : Word) : (s.push v).HoldsWord (phys (s.sreg .ss) (s.r16 .sp - 2)) v := by
  rw [State.push_eq]
  exact holdsWord_writeWord _ _ _

/-- A push of another word leaves a held word of the stack's segment held. -/
theorem State.HoldsWord.push {off v : Word} (h : t.HoldsWord (phys (t.sreg .ss) off) v) (w : Word)
    (h0 : off ≠ t.r16 .sp - 2) (h1 : off + 1#16 ≠ t.r16 .sp - 2) (h2 : t.r16 .sp - 2 + 1#16 ≠ off) :
    (t.push w).HoldsWord (phys (t.sreg .ss) off) v :=
  have k := State.push_memByte_apart t w off h0 h1 h2
  ⟨h.1.mono (by simp) k.1, h.2.mono (by simp) k.2⟩

/-- A held word of RAM is what a read answers. -/
theorem State.HoldsWord.readWord {pa : PAddr} {v : Word} (h : t.HoldsWord pa v) (hr : t.RamWord pa) :
    t.readWord pa = v := State.readWord_of_written (h.1 hr.1) (h.2 hr.2)

/-- The word a memory holds is what a read answers. -/
theorem readWord_of_memWord {pa : PAddr} {v : Word} (h : s.memWord pa = some v) : s.readWord pa = v := by
  unfold State.memWord at h
  split at h
  · next lo hi h0 h1 =>
    rw [State.readWord_of_memByte h0 h1]
    exact Option.some.inj h
  · cases h

/-- A word pushed to RAM is the one the next pop answers. -/
theorem popValue_push (s : State) (v : Word) (h : s.RamWord (phys (s.sreg .ss) (s.r16 .sp - 2))) :
    (s.push v).popValue = v := by
  have e : phys ((s.push v).sreg .ss) ((s.push v).r16 .sp) = phys (s.sreg .ss) (s.r16 .sp - 2) := by simp
  rw [State.popValue_eq, e]
  exact (holdsWord_push s v).readWord h

/-! ## Calls -/

theorem State.Calls.refl (s : State) : s.Calls s [] := rfl

theorem State.Calls.trans {cs ds : List BusCall} (h : s.Calls t cs) (k : t.Calls u ds) : s.Calls u (ds ++ cs) := by
  unfold State.Calls at *
  rw [k, h, List.append_assoc]

/-- An update that keeps the bus makes no call. -/
theorem State.Calls.of_bus {cs : List BusCall} (h : s.Calls t cs) (hb : u.bus = t.bus) : s.Calls u cs := by
  unfold State.Calls at *
  rw [hb, h]

theorem calls_push (s : State) (v : Word) :
    s.Calls (s.push v) [.writeWord (phys (s.sreg .ss) (s.r16 .sp - 2)) v] := State.push_calls s v

theorem calls_afterPop (s : State) :
    s.Calls s.afterPop [.readWord (phys (s.sreg .ss) (s.r16 .sp)) s.popValue] := State.afterPop_calls s

theorem calls_afterImm8 (s : State) : s.Calls s.afterImm8 [.readByte (s.codeBefore 1) s.imm8] := rfl

theorem calls_afterImm16 (s : State) : s.Calls s.afterImm16
    [.readByte (s.codeBefore 1) ((s.afterReadByte (s.codeBefore 2)).readByte (s.codeBefore 1)),
      .readByte (s.codeBefore 2) (s.readByte (s.codeBefore 2))] := rfl

theorem calls_afterFar (s : State) (ea : Word) : s.Calls (s.afterFar ea)
    [.readWord (s.dataAddr (ea + 2)) (s.farSegment ea), .readWord (s.dataAddr ea) (s.farOffset ea)] := rfl

/-! ## Byte operands -/

/-- Decoding and reading a byte operand is the one call that reads it. -/
theorem calls_loaded8 (s : State) (m : Rm Reg8) : s.Calls (s.loaded8 m) (s.rmReads8 m) := by
  cases m with
  | reg r => rfl
  | mem p =>
    show ((s.decodedMem p).afterReadByte ((s.decodedMem p).dataAddr (s.ea p))).bus.calls = _
    rw [State.afterReadByte_calls_self, State.decodedMem_bus]
    rfl

/-- Writing a byte operand is the one call that writes it. -/
theorem calls_writeOp8 (s : State) (m : Rm Reg8) (v : Byte) (h : t.dataAddr = (s.decoded m).dataAddr) :
    t.Calls (t.writeOp8 (s.operand m) v) (s.rmWrites8 m v) := by
  cases m with
  | reg r => rfl
  | mem p =>
    show (t.writeByte (t.dataAddr (s.ea p)) v).bus.calls = _
    rw [State.writeByte_calls_self, h]
    rfl

/-- An operand written is held. -/
theorem rmHolds8_writeOp8 (s : State) (m : Rm Reg8) (v : Byte) (h : t.dataAddr = (s.decoded m).dataAddr) :
    s.RmHolds8 (t.writeOp8 (s.operand m) v) m v := by
  cases m with
  | reg r => exact State.r8_setR8_self _ _ _
  | mem p =>
    show (t.writeByte (t.dataAddr (s.ea p)) v).HoldsByte ((s.decodedMem p).dataAddr (s.ea p)) v
    rw [h]
    exact holdsByte_writeByte _ _ _

/-- A held operand stays held under an update that keeps registers and the bus. -/
theorem State.RmHolds8.of_eq {m : Rm Reg8} {v : Byte} (h : s.RmHolds8 t m v) (hr : u.regs = t.regs)
    (hb : u.bus = t.bus) : s.RmHolds8 u m v := by
  cases m with
  | reg r =>
    show u.r8 r = v
    rw [State.r8, hr]
    exact h
  | mem p => exact State.HoldsByte.of_bus h hb

/-! ## Word operands -/

/-- Decoding and reading a word operand is the one call that reads it. -/
theorem calls_loaded16 (s : State) (m : Rm Reg16) : s.Calls (s.loaded16 m) (s.rmReads16 m) := by
  cases m with
  | reg r => rfl
  | mem p =>
    show ((s.decodedMem p).afterReadWord ((s.decodedMem p).dataAddr (s.ea p))).bus.calls = _
    rw [State.afterReadWord_calls_self, State.decodedMem_bus]
    rfl

/-- Writing a word operand is the one call that writes it. -/
theorem calls_writeOp16 (s : State) (m : Rm Reg16) (v : Word) (h : t.dataAddr = (s.decoded m).dataAddr) :
    t.Calls (t.writeOp16 (s.operand m) v) (s.rmWrites16 m v) := by
  cases m with
  | reg r => rfl
  | mem p =>
    show (t.writeWord (t.dataAddr (s.ea p)) v).bus.calls = _
    rw [State.writeWord_calls_self, h]
    rfl

/-- An operand written is held. -/
theorem rmHolds16_writeOp16 (s : State) (m : Rm Reg16) (v : Word) (h : t.dataAddr = (s.decoded m).dataAddr) :
    s.RmHolds16 (t.writeOp16 (s.operand m) v) m v := by
  cases m with
  | reg r => exact State.r16_setR16_self _ _ _
  | mem p =>
    show (t.writeWord (t.dataAddr (s.ea p)) v).HoldsWord ((s.decodedMem p).dataAddr (s.ea p)) v
    rw [h]
    exact holdsWord_writeWord _ _ _

/-- A held operand stays held under an update that keeps registers and the bus. -/
theorem State.RmHolds16.of_eq {m : Rm Reg16} {v : Word} (h : s.RmHolds16 t m v) (hr : u.regs = t.regs)
    (hb : u.bus = t.bus) : s.RmHolds16 u m v := by
  cases m with
  | reg r =>
    show u.r16 r = v
    rw [State.r16, hr]
    exact h
  | mem p => exact State.HoldsWord.of_bus h hb

end Sys2Proof.Machine
end

