-- ==== Sys2Proof/Laws/Frames.lean ====
section
/-! SUPPORT. The footprint of every shared operation of the instruction families: what it may touch, and that
it keeps the rest of the state. -/

namespace Sys2Proof.Machine

variable {rs : List Reg16} {hs : List Reg8} {ws : List PAddr} {fs : List FlagName} {s t u : State}

/-! ### The flags of NOT (41_arith_logic.md R264) -/

theorem notFlags_touches {w : Nat} (s : State) (r : BitVec w) (p : Params) (h : s.params = p) :
    Touches rs hs ws (if p.notSetsFlags then [.cf, .ovf, .sf, .zf, .pf] else []) s (s.notFlags r) := by
  unfold State.notFlags
  rw [h]
  split
  · exact setFlags_touches _ _ fun n hn => logicFlags_get _ _ hn
  · exact Touches.refl _

theorem notFlags_kept {w : Nat} (s : State) (r : BitVec w) : Kept s (s.notFlags r) := by
  unfold State.notFlags
  split
  · exact setFlags_kept _ _
  · exact Kept.refl _

/-! ### ALU operations on 8 bits (41_arith_logic.md R250, R262 to R269) -/

/-- An operand decoded, read and written back with new flags. -/
theorem rewriteOp8_touches (s : State) (m : Rm Reg8) (f : Flags) (v : Byte)
    (h : ∀ n, n ∉ fs → f.get n = (s.decoded m).flags.get n) :
    Touches [] (rmReg8 m) (s.rmBytes8 m) fs (s.decoded m)
      ((((s.decoded m).afterOp8 (s.operand m)).setFlags f).writeOp8 (s.operand m) v) :=
  ((afterOp8_touches _ _).trans (setFlags_touches _ _ (by simpa using h))).trans
    (writeOp8_touches _ _ _ _ (by simp))

theorem alu8_touches (s : State) (op : AluOp) (m : Rm Reg8) (b : Byte) (h : op.writes ⊆ fs) :
    Touches [] (rmReg8 m) (s.rmBytes8 m) fs (s.decoded m) ((s.decoded m).alu8 op (s.operand m) b) := by
  have hf := fun (a : Byte) n (hn : n ∉ fs) =>
    op.flags_get (s.decoded m).params.afMode a b (s.decoded m).flags fun c => hn (h c)
  unfold State.alu8
  dsimp only
  split
  · exact rewriteOp8_touches s m _ _ (hf _)
  · exact (afterOp8_touches _ _).trans (setFlags_touches _ _ (by simpa using hf _))

theorem alu8_kept (s : State) (op : AluOp) (o : Operand Reg8) (b : Byte) : Kept s (s.alu8 op o b) := by
  unfold State.alu8
  dsimp only
  split
  · exact ((afterOp8_kept _ _).trans (setFlags_kept _ _)).trans (writeOp8_kept _ _ _)
  · exact (afterOp8_kept _ _).trans (setFlags_kept _ _)

/-- CMP writes nothing back (41_arith_logic.md R258). -/
theorem alu8_cmp (s : State) (o : Operand Reg8) (b : Byte) :
    s.alu8 .cmp o b = (s.afterOp8 o).setFlags (subFlags s.params.afMode (s.readOp8 o) b false s.flags) := rfl

theorem negOp8_touches (s : State) (m : Rm Reg8) :
    Touches [] (rmReg8 m) (s.rmBytes8 m) arithFlags (s.decoded m) ((s.decoded m).negOp8 (s.operand m)) := by
  unfold State.negOp8
  exact rewriteOp8_touches s m _ _ fun n hn => subFlags_get _ _ _ _ _ hn

theorem negOp8_kept (s : State) (o : Operand Reg8) : Kept s (s.negOp8 o) :=
  ((afterOp8_kept _ _).trans (setFlags_kept _ _)).trans (writeOp8_kept _ _ _)

theorem incOp8_touches (s : State) (m : Rm Reg8) :
    Touches [] (rmReg8 m) (s.rmBytes8 m) [.ovf, .sf, .zf, .pf, .af] (s.decoded m) ((s.decoded m).incOp8 (s.operand m)) := by
  unfold State.incOp8
  exact rewriteOp8_touches s m _ _ fun n hn => incFlags_get _ _ _ hn

theorem incOp8_kept (s : State) (o : Operand Reg8) : Kept s (s.incOp8 o) :=
  ((afterOp8_kept _ _).trans (setFlags_kept _ _)).trans (writeOp8_kept _ _ _)

theorem decOp8_touches (s : State) (m : Rm Reg8) :
    Touches [] (rmReg8 m) (s.rmBytes8 m) [.ovf, .sf, .zf, .pf, .af] (s.decoded m) ((s.decoded m).decOp8 (s.operand m)) := by
  unfold State.decOp8
  exact rewriteOp8_touches s m _ _ fun n hn => decFlags_get _ _ _ hn

theorem decOp8_kept (s : State) (o : Operand Reg8) : Kept s (s.decOp8 o) :=
  ((afterOp8_kept _ _).trans (setFlags_kept _ _)).trans (writeOp8_kept _ _ _)

theorem notOp8_touches (s : State) (m : Rm Reg8) :
    Touches [] (rmReg8 m) (s.rmBytes8 m) (if s.params.notSetsFlags then [.cf, .ovf, .sf, .zf, .pf] else [])
      (s.decoded m) ((s.decoded m).notOp8 (s.operand m)) := by
  exact ((afterOp8_touches _ _).trans (writeOp8_touches s _ m _ (by simp))).trans
    (notFlags_touches _ (~~~(s.decoded m).readOp8 (s.operand m)) _ (by simp))

theorem notOp8_kept (s : State) (o : Operand Reg8) : Kept s (s.notOp8 o) :=
  ((afterOp8_kept s o).trans (writeOp8_kept _ o (~~~s.readOp8 o))).trans (notFlags_kept _ (~~~s.readOp8 o))

theorem shift8_touches (s : State) (op : ShiftOp) (m : Rm Reg8) (n : Nat) :
    Touches [] (rmReg8 m) (s.rmBytes8 m) op.writes (s.decoded m) ((s.decoded m).shift8 op (s.operand m) n) := by
  unfold State.shift8
  dsimp only
  split
  · exact afterOp8_touches _ _
  · exact ((afterOp8_touches _ _).trans (writeOp8_touches s _ m _ (by simp))).trans (shiftFlags_touches _ _ _ _ _ (List.Subset.refl _))

theorem shift8_kept (s : State) (op : ShiftOp) (o : Operand Reg8) (n : Nat) : Kept s (s.shift8 op o n) := by
  unfold State.shift8
  dsimp only
  split
  · exact afterOp8_kept _ _
  · exact ((afterOp8_kept _ _).trans (writeOp8_kept _ _ _)).trans (shiftFlags_kept _ _ _ _ _)

theorem xchg8_touches (s : State) (m : Rm Reg8) (r : Reg8) :
    Touches [] (r :: rmReg8 m) (s.rmBytes8 m) fs (s.decoded m) ((s.decoded m).xchg8 (s.operand m) r) :=
  (((afterOp8_touches _ _).trans (writeOp8_touches s _ m _ (by simp))).mono (by simp) (by simp) (List.Subset.refl _) (List.Subset.refl _)).trans
    (setR8_touches _ _ (List.mem_cons_self ..))

theorem xchg8_kept (s : State) (o : Operand Reg8) (r : Reg8) : Kept s (s.xchg8 o r) :=
  ((afterOp8_kept _ _).trans <| writeOp8_kept _ _ _).trans (setR8_kept _ _ _)

/-! ### ALU operations on 16 bits (41_arith_logic.md R250, R262 to R269) -/

/-- An operand decoded, read and written back with new flags. -/
theorem rewriteOp16_touches (s : State) (m : Rm Reg16) (f : Flags) (v : Word)
    (h : ∀ n, n ∉ fs → f.get n = (s.decoded m).flags.get n) :
    Touches (rmReg16 m) [] (s.rmBytes16 m) fs (s.decoded m)
      ((((s.decoded m).afterOp16 (s.operand m)).setFlags f).writeOp16 (s.operand m) v) :=
  ((afterOp16_touches _ _).trans (setFlags_touches _ _ (by simpa using h))).trans
    (writeOp16_touches _ _ _ _ (by simp))

theorem alu16_touches (s : State) (op : AluOp) (m : Rm Reg16) (b : Word) (h : op.writes ⊆ fs) :
    Touches (rmReg16 m) [] (s.rmBytes16 m) fs (s.decoded m) ((s.decoded m).alu16 op (s.operand m) b) := by
  have hf := fun (a : Word) n (hn : n ∉ fs) =>
    op.flags_get (s.decoded m).params.afMode a b (s.decoded m).flags fun c => hn (h c)
  unfold State.alu16
  dsimp only
  split
  · exact rewriteOp16_touches s m _ _ (hf _)
  · exact (afterOp16_touches _ _).trans (setFlags_touches _ _ (by simpa using hf _))

theorem alu16_kept (s : State) (op : AluOp) (o : Operand Reg16) (b : Word) : Kept s (s.alu16 op o b) := by
  unfold State.alu16
  dsimp only
  split
  · exact ((afterOp16_kept _ _).trans (setFlags_kept _ _)).trans (writeOp16_kept _ _ _)
  · exact (afterOp16_kept _ _).trans (setFlags_kept _ _)

/-- CMP writes nothing back (41_arith_logic.md R258). -/
theorem alu16_cmp (s : State) (o : Operand Reg16) (b : Word) :
    s.alu16 .cmp o b = (s.afterOp16 o).setFlags (subFlags s.params.afMode (s.readOp16 o) b false s.flags) := rfl

theorem negOp16_touches (s : State) (m : Rm Reg16) :
    Touches (rmReg16 m) [] (s.rmBytes16 m) arithFlags (s.decoded m) ((s.decoded m).negOp16 (s.operand m)) := by
  unfold State.negOp16
  exact rewriteOp16_touches s m _ _ fun n hn => subFlags_get _ _ _ _ _ hn

theorem negOp16_kept (s : State) (o : Operand Reg16) : Kept s (s.negOp16 o) :=
  ((afterOp16_kept _ _).trans (setFlags_kept _ _)).trans (writeOp16_kept _ _ _)

theorem incOp16_touches (s : State) (m : Rm Reg16) :
    Touches (rmReg16 m) [] (s.rmBytes16 m) [.ovf, .sf, .zf, .pf, .af] (s.decoded m) ((s.decoded m).incOp16 (s.operand m)) := by
  unfold State.incOp16
  exact rewriteOp16_touches s m _ _ fun n hn => incFlags_get _ _ _ hn

theorem incOp16_kept (s : State) (o : Operand Reg16) : Kept s (s.incOp16 o) :=
  ((afterOp16_kept _ _).trans (setFlags_kept _ _)).trans (writeOp16_kept _ _ _)

theorem decOp16_touches (s : State) (m : Rm Reg16) :
    Touches (rmReg16 m) [] (s.rmBytes16 m) [.ovf, .sf, .zf, .pf, .af] (s.decoded m) ((s.decoded m).decOp16 (s.operand m)) := by
  unfold State.decOp16
  exact rewriteOp16_touches s m _ _ fun n hn => decFlags_get _ _ _ hn

theorem decOp16_kept (s : State) (o : Operand Reg16) : Kept s (s.decOp16 o) :=
  ((afterOp16_kept _ _).trans (setFlags_kept _ _)).trans (writeOp16_kept _ _ _)

theorem notOp16_touches (s : State) (m : Rm Reg16) :
    Touches (rmReg16 m) [] (s.rmBytes16 m) (if s.params.notSetsFlags then [.cf, .ovf, .sf, .zf, .pf] else [])
      (s.decoded m) ((s.decoded m).notOp16 (s.operand m)) := by
  exact ((afterOp16_touches _ _).trans (writeOp16_touches s _ m _ (by simp))).trans
    (notFlags_touches _ (~~~(s.decoded m).readOp16 (s.operand m)) _ (by simp))

theorem notOp16_kept (s : State) (o : Operand Reg16) : Kept s (s.notOp16 o) :=
  ((afterOp16_kept s o).trans (writeOp16_kept _ o (~~~s.readOp16 o))).trans (notFlags_kept _ (~~~s.readOp16 o))

theorem shift16_touches (s : State) (op : ShiftOp) (m : Rm Reg16) (n : Nat) :
    Touches (rmReg16 m) [] (s.rmBytes16 m) op.writes (s.decoded m) ((s.decoded m).shift16 op (s.operand m) n) := by
  unfold State.shift16
  dsimp only
  split
  · exact afterOp16_touches _ _
  · exact ((afterOp16_touches _ _).trans (writeOp16_touches s _ m _ (by simp))).trans (shiftFlags_touches _ _ _ _ _ (List.Subset.refl _))

theorem shift16_kept (s : State) (op : ShiftOp) (o : Operand Reg16) (n : Nat) : Kept s (s.shift16 op o n) := by
  unfold State.shift16
  dsimp only
  split
  · exact afterOp16_kept _ _
  · exact ((afterOp16_kept _ _).trans (writeOp16_kept _ _ _)).trans (shiftFlags_kept _ _ _ _ _)

theorem xchg16_touches (s : State) (m : Rm Reg16) (r : Reg16) :
    Touches (r :: rmReg16 m) [] (s.rmBytes16 m) fs (s.decoded m) ((s.decoded m).xchg16 (s.operand m) r) :=
  (((afterOp16_touches _ _).trans (writeOp16_touches s _ m _ (by simp))).mono (by simp) (by simp) (List.Subset.refl _) (List.Subset.refl _)).trans
    (setR16_touches _ _ (List.mem_cons_self ..))

theorem xchg16_kept (s : State) (o : Operand Reg16) (r : Reg16) : Kept s (s.xchg16 o r) :=
  ((afterOp16_kept _ _).trans <| writeOp16_kept _ _ _).trans (setR16_kept _ _ _)

/-! ### Multiply, divide, decimal adjust (42_muldiv_bcd.md) -/

theorem mulFlags_touches (s : State) (c : Bool) : Touches rs hs ws arithFlags s (s.mulFlags c) :=
  (setFlags_touches _ _ fun n hn => by cases n <;> first | rfl | simp [arithFlags] at hn).trans
    (undefFlags_touches _ _ (by simp [arithFlags]))

theorem mulFlags_kept (s : State) (c : Bool) : Kept s (s.mulFlags c) :=
  (setFlags_kept _ _).trans (undefFlags_kept _ _)

theorem mul8_touches (s : State) (x : Byte) : Touches [.ax] [] [] arithFlags s (s.mul8 x) :=
  (setR16_touches s _ (by simp)).trans (mulFlags_touches _ _)

theorem mul8_kept (s : State) (x : Byte) : Kept s (s.mul8 x) := (setR16_kept _ _ _).trans (mulFlags_kept _ _)

theorem mul16_touches (s : State) (x : Word) : Touches [.ax, .dx] [] [] arithFlags s (s.mul16 x) :=
  ((setR16_touches s _ (by simp)).trans (setR16_touches _ _ (by simp))).trans (mulFlags_touches _ _)

theorem mul16_kept (s : State) (x : Word) : Kept s (s.mul16 x) :=
  ((setR16_kept _ _ _).trans (setR16_kept _ _ _)).trans (mulFlags_kept _ _)

theorem imul8_touches (s : State) (x : Byte) : Touches [.ax] [] [] arithFlags s (s.imul8 x) :=
  (setR16_touches s _ (by simp)).trans (mulFlags_touches _ _)

theorem imul8_kept (s : State) (x : Byte) : Kept s (s.imul8 x) := (setR16_kept _ _ _).trans (mulFlags_kept _ _)

theorem imul16_touches (s : State) (x : Word) : Touches [.ax, .dx] [] [] arithFlags s (s.imul16 x) :=
  ((setR16_touches s _ (by simp)).trans (setR16_touches _ _ (by simp))).trans (mulFlags_touches _ _)

theorem imul16_kept (s : State) (x : Word) : Kept s (s.imul16 x) :=
  ((setR16_kept _ _ _).trans (setR16_kept _ _ _)).trans (mulFlags_kept _ _)

theorem divFlags_touches (s : State) : Touches rs hs ws arithFlags s s.divFlags :=
  undefFlags_touches _ _ (by simp [arithFlags])

theorem divFlags_kept (s : State) : Kept s s.divFlags := undefFlags_kept _ _

/-- DX:AX as a number, from its two words. -/
theorem State.dxAx_toNat (s : State) : s.dxAx.toNat = (s.r16 .dx).toNat * 0x10000 + (s.r16 .ax).toNat := by
  rw [State.dxAx, BitVec.toNat_append, ← Nat.shiftLeft_add_eq_or_of_lt (s.r16 .ax).isLt, Nat.shiftLeft_eq]

/-- DIV by a byte is a divide error or stores quotient and remainder, and which of the two the divisor
and the dividend tell. -/
theorem div8_cases (s : State) (d : Byte) :
    s.div8Faults d = true ∧ s.div8 d = s.serviceInterrupt 0 ∨
    s.div8Faults d = false ∧ Touches [] [.al, .ah] [] arithFlags s (s.div8 d) ∧ Kept s (s.div8 d) := by
  unfold State.div8
  by_cases hd : d = 0
  · exact .inl ⟨by simp [State.div8Faults, hd], by simp [hd, State.divideError]⟩
  · by_cases hq : (s.r16 .ax).toNat / d.toNat > 0xFF
    · exact .inl ⟨by simp_all [State.div8Faults], by simp_all [State.divideError]⟩
    · refine .inr ⟨by simp_all [State.div8Faults], ?_⟩
      dsimp only
      rw [if_neg hd, if_neg hq]
      exact ⟨((setR8_touches s _ (by simp)).trans (setR8_touches _ _ (by simp))).trans (divFlags_touches _),
        ((setR8_kept _ _ _).trans (setR8_kept _ _ _)).trans (divFlags_kept _)⟩

/-- DIV by a word is a divide error or stores quotient and remainder, and which of the two the divisor
and the dividend tell. -/
theorem div16_cases (s : State) (d : Word) :
    s.div16Faults d = true ∧ s.div16 d = s.serviceInterrupt 0 ∨
    s.div16Faults d = false ∧ Touches [.ax, .dx] [] [] arithFlags s (s.div16 d) ∧ Kept s (s.div16 d) := by
  unfold State.div16
  by_cases hd : d = 0
  · exact .inl ⟨by simp [State.div16Faults, hd], by simp [hd, State.divideError]⟩
  · by_cases hq : s.dxAx.toNat / d.toNat > 0xFFFF
    · exact .inl ⟨by simp_all [State.div16Faults, State.dxAx_toNat], by simp_all [State.divideError]⟩
    · refine .inr ⟨by simp_all [State.div16Faults, State.dxAx_toNat], ?_⟩
      dsimp only
      rw [if_neg hd, if_neg hq]
      exact ⟨((setR16_touches s _ (by simp)).trans (setR16_touches _ _ (by simp))).trans (divFlags_touches _),
        ((setR16_kept _ _ _).trans (setR16_kept _ _ _)).trans (divFlags_kept _)⟩

/-- IDIV by a byte is a divide error or stores quotient and remainder, and which of the two the divisor
and the dividend tell. -/
theorem idiv8_cases (s : State) (d : Byte) :
    s.idiv8Faults d = true ∧ s.idiv8 d = s.serviceInterrupt 0 ∨
    s.idiv8Faults d = false ∧ Touches [] [.al, .ah] [] arithFlags s (s.idiv8 d) ∧ Kept s (s.idiv8 d) := by
  unfold State.idiv8
  by_cases hd : d = 0
  · exact .inl ⟨by simp [State.idiv8Faults, hd], by simp [hd, State.divideError]⟩
  · by_cases hq : s.idivOverflows 8 ((s.r16 .ax).toInt.tdiv d.toInt) = true
    · exact .inl ⟨by simp_all [State.idiv8Faults], by simp_all [State.divideError]⟩
    · refine .inr ⟨by simp_all [State.idiv8Faults], ?_⟩
      dsimp only
      rw [if_neg hd, if_neg hq]
      exact ⟨((setR8_touches s _ (by simp)).trans (setR8_touches _ _ (by simp))).trans (divFlags_touches _),
        ((setR8_kept _ _ _).trans (setR8_kept _ _ _)).trans (divFlags_kept _)⟩

/-- IDIV by a word is a divide error or stores quotient and remainder, and which of the two the divisor
and the dividend tell. -/
theorem idiv16_cases (s : State) (d : Word) :
    s.idiv16Faults d = true ∧ s.idiv16 d = s.serviceInterrupt 0 ∨
    s.idiv16Faults d = false ∧ Touches [.ax, .dx] [] [] arithFlags s (s.idiv16 d) ∧ Kept s (s.idiv16 d) := by
  unfold State.idiv16
  by_cases hd : d = 0
  · exact .inl ⟨by simp [State.idiv16Faults, hd], by simp [hd, State.divideError]⟩
  · by_cases hq : s.idivOverflows 16 (s.dxAx.toInt.tdiv d.toInt) = true
    · exact .inl ⟨by simp_all [State.idiv16Faults], by simp_all [State.divideError]⟩
    · refine .inr ⟨by simp_all [State.idiv16Faults], ?_⟩
      dsimp only
      rw [if_neg hd, if_neg hq]
      exact ⟨((setR16_touches s _ (by simp)).trans (setR16_touches _ _ (by simp))).trans (divFlags_touches _),
        ((setR16_kept _ _ _).trans (setR16_kept _ _ _)).trans (divFlags_kept _)⟩

theorem decimalAdd_touches (s : State) : Touches [] [.al] [] arithFlags s s.decimalAdd :=
  ((setR8_touches s _ (by simp)).trans
    (setFlags_touches _ _ fun n hn => by cases n <;> first | rfl | simp [arithFlags] at hn)).trans
    (undefFlag_touches _ (by simp [arithFlags]))

theorem decimalAdd_kept (s : State) : Kept s s.decimalAdd :=
  ((setR8_kept _ _ _).trans (setFlags_kept _ _)).trans (undefFlag_kept _ _)

theorem decimalSub_touches (s : State) : Touches [] [.al] [] arithFlags s s.decimalSub :=
  ((setR8_touches s _ (by simp)).trans
    (setFlags_touches _ _ fun n hn => by cases n <;> first | rfl | simp [arithFlags] at hn)).trans
    (undefFlag_touches _ (by simp [arithFlags]))

theorem decimalSub_kept (s : State) : Kept s s.decimalSub :=
  ((setR8_kept _ _ _).trans (setFlags_kept _ _)).trans (undefFlag_kept _ _)

theorem asciiAdjust_touches (s : State) (al ah : Byte) :
    Touches [] [.al, .ah] [] arithFlags s (s.asciiAdjust al ah) :=
  (((setR8_touches s _ (by simp)).trans (setR8_touches _ _ (by simp))).trans
    (setFlags_touches _ _ fun n hn => by cases n <;> first | rfl | simp [arithFlags] at hn)).trans
    (undefFlags_touches _ _ (by simp [arithFlags]))

theorem asciiAdjust_kept (s : State) (al ah : Byte) : Kept s (s.asciiAdjust al ah) :=
  (((setR8_kept _ _ _).trans (setR8_kept _ _ _)).trans (setFlags_kept _ _)).trans (undefFlags_kept _ _)

theorem asciiJoin_touches (s : State) (b : Byte) : Touches [] [.al, .ah] [] arithFlags s (s.asciiJoin b) :=
  (((setR8_touches s _ (by simp)).trans (setR8_touches _ _ (by simp))).trans
    (setFlags_touches _ _ fun n hn => by cases n <;> first | rfl | simp [arithFlags] at hn)).trans
    (undefFlags_touches _ _ (by simp [arithFlags]))

theorem asciiJoin_kept (s : State) (b : Byte) : Kept s (s.asciiJoin b) :=
  (((setR8_kept _ _ _).trans (setR8_kept _ _ _)).trans (setFlags_kept _ _)).trans (undefFlags_kept _ _)

theorem asciiSplit_zero (s : State) : s.asciiSplit 0 = s.serviceInterrupt 0 := rfl

theorem asciiSplit_touches (s : State) {b : Byte} (h : b ≠ 0) :
    Touches [] [.al, .ah] [] arithFlags s (s.asciiSplit b) := by
  unfold State.asciiSplit
  dsimp only
  rw [if_neg h]
  exact (((setR8_touches s _ (by simp)).trans (setR8_touches _ _ (by simp))).trans
    (setFlags_touches _ _ fun n hn => by cases n <;> first | rfl | simp [arithFlags] at hn)).trans
    (undefFlags_touches _ _ (by simp [arithFlags]))

theorem asciiSplit_kept (s : State) {b : Byte} (h : b ≠ 0) : Kept s (s.asciiSplit b) := by
  unfold State.asciiSplit
  dsimp only
  rw [if_neg h]
  exact (((setR8_kept _ _ _).trans (setR8_kept _ _ _)).trans (setFlags_kept _ _)).trans (undefFlags_kept _ _)

end Sys2Proof.Machine
end

