-- ==== Sys2Proof/Laws/Strings.lean ====
section
/-! SUPPORT. The repeat loop and the bodies of the string instructions: how the loop unrolls, the induction it
takes, and what one body may touch (44_string.md R390 to R398). -/

namespace Sys2Proof.Machine

variable {rs : List Reg16} {hs : List Reg8} {ws : List PAddr} {fs : List FlagName} {s t u : State}

/-! ## The loop -/

/-- CX counted down before a body. -/
def State.counted (s : State) : State := s.setR16 .cx (s.r16 .cx - 1)

@[simp] theorem stringLoop_zero (c : Bool) (body : State → State) (s : State) :
    State.stringLoop c body 0 s = s := rfl

theorem stringLoop_succ (c : Bool) (body : State → State) (n : Nat) (s : State) :
    State.stringLoop c body (n + 1) s =
      if (body s.counted).repeatEnds c = true then body s.counted
      else State.stringLoop c body n (body s.counted) := rfl

/-- A loop that does not look at the zero flag runs every body. -/
theorem stringLoop_plain_succ (body : State → State) (n : Nat) (s : State) :
    State.stringLoop false body (n + 1) s = State.stringLoop false body n (body s.counted) := rfl

/-- What each body keeps, the loop keeps. -/
theorem stringLoop_keeps {P : State → Prop} {c : Bool} {body : State → State}
    (h : ∀ t, P t → P (body t.counted)) : ∀ n s, P s → P (State.stringLoop c body n s)
  | 0, _, hs => hs
  | n + 1, s, hs => by
    rw [stringLoop_succ]
    split
    · exact h s hs
    · exact stringLoop_keeps h n _ (h s hs)

/-- A loop that does not look at the zero flag, given what each body makes true, from the `k`-th body on. -/
theorem stringLoop_plain_induct {I : Nat → State → Prop} {body : State → State} {n : Nat}
    (h : ∀ k t, k < n → I k t → I (k + 1) (body t.counted)) :
    ∀ m k s, k + m = n → I k s → I n (State.stringLoop false body m s)
  | 0, k, s, e, hs => by
    have : k = n := by omega
    exact this ▸ hs
  | m + 1, k, s, e, hs => by
    rw [stringLoop_plain_succ]
    exact stringLoop_plain_induct h m (k + 1) _ (by omega) (h k s (by omega) hs)

theorem stringExec_once {s : State} (h : s.rep = .none) (c : Bool) (body : State → State) :
    s.stringExec c body = body s := by
  simp [State.stringExec, h]

theorem stringExec_repeat {s : State} (h : s.rep ≠ .none) (c : Bool) (body : State → State) :
    s.stringExec c body = { State.stringLoop c body (s.r16 .cx).toNat s with rep := .none } := by
  unfold State.stringExec
  split
  · next e => exact absurd e h
  · rfl

/-! ## One body -/

theorem counted_touches (s : State) (h : Reg16.cx ∈ rs) : Touches rs hs ws fs s s.counted :=
  setR16_touches _ _ h

theorem counted_kept (s : State) : Kept s s.counted := setR16_kept _ _ _

theorem advance_touches (s : State) {r : Reg16} (n : Word) (h : r ∈ rs) : Touches rs hs ws fs s (s.advance r n) :=
  setR16_touches _ _ h

theorem advance_kept (s : State) (r : Reg16) (n : Word) : Kept s (s.advance r n) := setR16_kept _ _ _

theorem movs8_touches (s : State) : Touches [.si, .di] [] [s.stringDest] fs s s.movs8 :=
  (((afterReadByte_touches s _).trans
    (writeByte_touches _ _ (List.mem_singleton.mpr rfl))).trans (advance_touches _ _ (by simp))).trans
    (advance_touches _ _ (by simp))

theorem movs8_kept (s : State) : Kept s s.movs8 :=
  (((afterReadByte_kept _ _).trans (writeByte_kept _ _ _)).trans (advance_kept _ _ _)).trans (advance_kept _ _ _)

theorem stos8_touches (s : State) : Touches [.di] [] [s.stringDest] fs s s.stos8 :=
  (writeByte_touches s _ (List.mem_singleton.mpr rfl)).trans (advance_touches _ _ (by simp))

theorem stos8_kept (s : State) : Kept s s.stos8 := (writeByte_kept _ _ _).trans (advance_kept _ _ _)

theorem cmps8_touches (s : State) : Touches [.si, .di] [] ws arithFlags s s.cmps8 :=
  ((((afterReadByte_touches s _).trans (afterReadByte_touches _ _)).trans
    (setFlags_touches _ _ fun n hn => subFlags_get _ _ _ _ _ hn)).trans (advance_touches _ _ (by simp))).trans
    (advance_touches _ _ (by simp))

theorem cmps8_kept (s : State) : Kept s s.cmps8 :=
  ((((afterReadByte_kept _ _).trans (afterReadByte_kept _ _)).trans (setFlags_kept _ _)).trans (advance_kept _ _ _)).trans (advance_kept _ _ _)

theorem scas8_touches (s : State) : Touches [.di] [] ws arithFlags s s.scas8 :=
  ((afterReadByte_touches s _).trans (setFlags_touches _ _ fun n hn => subFlags_get _ _ _ _ _ hn)).trans (advance_touches _ _ (by simp))

theorem scas8_kept (s : State) : Kept s s.scas8 :=
  ((afterReadByte_kept _ _).trans (setFlags_kept _ _)).trans (advance_kept _ _ _)

theorem lods8_touches (s : State) : Touches [.si] [.al] ws fs s s.lods8 :=
  ((afterReadByte_touches s _).trans (setR8_touches _ _ (by simp))).trans (advance_touches _ _ (by simp))

theorem lods8_kept (s : State) : Kept s s.lods8 :=
  ((afterReadByte_kept _ _).trans (setR8_kept _ _ _)).trans (advance_kept _ _ _)

theorem movs16_touches (s : State) : Touches [.si, .di] [] (wordBytes s.stringDest) fs s s.movs16 :=
  (((afterReadWord_touches s _).trans
    (writeWord_touches _ _ (List.mem_cons_self ..) (List.mem_cons_of_mem _ (List.mem_cons_self ..)))).trans (advance_touches _ _ (by simp))).trans
    (advance_touches _ _ (by simp))

theorem movs16_kept (s : State) : Kept s s.movs16 :=
  (((afterReadWord_kept _ _).trans (writeWord_kept _ _ _)).trans (advance_kept _ _ _)).trans (advance_kept _ _ _)

theorem stos16_touches (s : State) : Touches [.di] [] (wordBytes s.stringDest) fs s s.stos16 :=
  (writeWord_touches s _ (List.mem_cons_self ..) (List.mem_cons_of_mem _ (List.mem_cons_self ..))).trans (advance_touches _ _ (by simp))

theorem stos16_kept (s : State) : Kept s s.stos16 := (writeWord_kept _ _ _).trans (advance_kept _ _ _)

theorem cmps16_touches (s : State) : Touches [.si, .di] [] ws arithFlags s s.cmps16 :=
  ((((afterReadWord_touches s _).trans (afterReadWord_touches _ _)).trans
    (setFlags_touches _ _ fun n hn => subFlags_get _ _ _ _ _ hn)).trans (advance_touches _ _ (by simp))).trans
    (advance_touches _ _ (by simp))

theorem cmps16_kept (s : State) : Kept s s.cmps16 :=
  ((((afterReadWord_kept _ _).trans (afterReadWord_kept _ _)).trans (setFlags_kept _ _)).trans (advance_kept _ _ _)).trans (advance_kept _ _ _)

theorem scas16_touches (s : State) : Touches [.di] [] ws arithFlags s s.scas16 :=
  ((afterReadWord_touches s _).trans (setFlags_touches _ _ fun n hn => subFlags_get _ _ _ _ _ hn)).trans (advance_touches _ _ (by simp))

theorem scas16_kept (s : State) : Kept s s.scas16 :=
  ((afterReadWord_kept _ _).trans (setFlags_kept _ _)).trans (advance_kept _ _ _)

theorem lods16_touches (s : State) : Touches [.ax, .si] [] ws fs s s.lods16 :=
  ((afterReadWord_touches s _).trans (setR16_touches _ _ (by simp))).trans (advance_touches _ _ (by simp))

theorem lods16_kept (s : State) : Kept s s.lods16 :=
  ((afterReadWord_kept _ _).trans (setR16_kept _ _ _)).trans (advance_kept _ _ _)

end Sys2Proof.Machine
end

