-- ==== Sys2Proof/Laws/Exec.lean ====
section
/-! SUPPORT. What every instruction and the step have in common: each instruction answers a next state, how the bytes
of an instruction are fetched, and how a fetch unrolls one decoded instruction at a time (30_encoding.md R120;
60_exceptions.md R600). -/

namespace Sys2Proof.Machine

/-- No meaning stops: every instruction answers a next state. -/
theorem exec_next (i : Instr) (s : State) : ∃ t, exec i s = .next t := by
  cases i <;> exact ⟨_, rfl⟩

/-! ## Fetching the bytes of an instruction -/

theorem afterFetchByte_touches {rs : List Reg16} {hs : List Reg8} {ws : List PAddr} {fs : List FlagName} (s : State) :
    Touches rs hs ws fs s s.afterFetchByte := (afterReadByte_touches s _).trans (setIp_touches _ _)

theorem afterBytes_touches {rs : List Reg16} {hs : List Reg8} {ws : List PAddr} {fs : List FlagName} :
    ∀ (n : Nat) (s : State), Touches rs hs ws fs s (s.afterBytes n)
  | 0, s => Touches.refl s
  | n + 1, s => (afterFetchByte_touches s).trans (afterBytes_touches n _)

/-- The state an instruction was fetched to: some number of bytes read, IP set. -/
theorem fetchInstr_afterBytes : ∀ (n : Nat) (bs : List Byte) (s : State),
    ∃ k v, (State.fetchInstr n bs s).2 = (s.afterBytes k).setIp v
  | 0, _, s => ⟨0, s.ip, rfl⟩
  | n + 1, bs, s => by
    rw [State.fetchInstr]
    split
    · exact ⟨1, s.ip + 1, rfl⟩
    · split
      · next o _ => cases o <;> exact ⟨1, _, rfl⟩
      · obtain ⟨k, v, hk⟩ := fetchInstr_afterBytes n (bs ++ [s.fetchByte]) s.afterFetchByte
        exact ⟨k + 1, v, hk⟩

/-- What a fetch does with bytes `new` that the bus answers, when no proper part of them, after the bytes before them,
makes an instruction: it decodes them all, or leaves the immediate of a TEST to its meaning, or goes on. -/
theorem fetchInstr_of_reads : ∀ (n : Nat) (bs new : List Byte) (s : State), new ≠ [] → new.length ≤ n → s.Reads new →
    (∀ k < new.length, k ≠ 0 →
      (∃ e, decode (bs ++ new.take k) = .error e) ∧ testOperand (bs ++ new.take k) = none) →
    State.fetchInstr n bs s =
      match decode (bs ++ new), testOperand (bs ++ new) with
      | .ok (i, _), _ => (some i, s.afterBytes new.length)
      | .error _, some o => (some ((s.afterBytes new.length).fetchTest o).1, ((s.afterBytes new.length).fetchTest o).2)
      | .error _, none => State.fetchInstr (n - new.length) (bs ++ new) (s.afterBytes new.length)
  | _, _, [], _, h, _, _, _ => absurd rfl h
  | 0, _, _ :: _, _, _, h, _, _ => absurd h (by simp)
  | n + 1, bs, b :: new, s, _, hn, hr, hp => by
    obtain ⟨hb, hr⟩ := hr
    rw [State.fetchInstr, hb]
    cases new with
    | nil =>
      cases decode (bs ++ [b]) with
      | ok r => rfl
      | error e => cases testOperand (bs ++ [b]) <;> rfl
    | cons c cs =>
      obtain ⟨⟨e, he⟩, ht⟩ := hp 1 (by simp) (by simp)
      rw [List.take_succ_cons, List.take_zero] at he ht
      rw [he]
      simp only [ht]
      have ha : ∀ l : List Byte, bs ++ [b] ++ l = bs ++ b :: l := fun l => by simp
      rw [fetchInstr_of_reads n (bs ++ [b]) (c :: cs) s.afterFetchByte (by simp) (by simpa using hn) hr
        (fun k hk h0 => by
          rw [ha]
          have := hp (k + 1) (by simpa using hk) (by simp)
          rwa [List.take_succ_cons] at this), ha, List.length_cons (a := b), Nat.add_sub_add_right]
      rfl

/-- One turn of the fetch, for an instruction whose bytes were fetched. -/
theorem runInstr_succ {s t u : State} {i : Instr} (n : Nat)
    (h : State.fetchInstr 6 [] s.beginInstr = (some i, u)) (e : exec i u = .next t) :
    runInstr (n + 1) s = if isPrefixByte i then runInstr n t else .next (t.finish s.fetchByte s.flags.tf) := by
  simp only [runInstr, h, e]

/-! ## The canonical form of memory -/

/-- The checks at the end of a fetch keep the canonical form of memory. -/
theorem finish_wf (s : State) (b : Byte) (tf : Bool) (h : s.bus.wf = true) : (s.finish b tf).bus.wf = true := by
  unfold State.finish
  split
  · exact h
  · split
    · exact h
    · split
      · exact State.wf_serviceInterrupt _ _ h
      · exact h

/-- The poll keeps the canonical form of memory. -/
theorem poll_wf (s : State) (h : s.bus.wf = true) : s.poll.bus.wf = true := by
  unfold State.poll
  split
  · next v rest _ =>
    split
    · exact State.wf_serviceInterrupt ({ s with irq := rest } : State) v h
    · exact h
  · exact h

end Sys2Proof.Machine
end

