-- ==== Sys2Proof/Laws/PerInstr.lean ====
section
/-! SUPPORT. Statements made for all instructions, with one lemma per constructor. -/

namespace Sys2Proof.Laws.EncodedLength

/-- An instruction without its prefixes is one to six bytes long (30_encoding.md R123). -/
def Statement (i : Instr) : Prop := i.wf = true → 1 ≤ (encode i).length ∧ (encode i).length ≤ 6

theorem short {l : List Byte} (h1 : Nat.ble 1 l.length = true) (h6 : Nat.ble l.length 6 = true) :
    1 ≤ l.length ∧ l.length ≤ 6 := ⟨Nat.le_of_ble_eq_true h1, Nat.le_of_ble_eq_true h6⟩

theorem modrm (b : Byte) (q : BitVec 3) (m : Rm (BitVec 3)) :
    1 ≤ (b :: encModrm q m).length ∧ (b :: encModrm q m).length ≤ 6 := by
  have h := encModrm_length q m
  simp only [List.length_cons]
  omega

theorem modrmByte (b : Byte) (q : BitVec 3) (m : Rm (BitVec 3)) (i : Byte) :
    1 ≤ (b :: (encModrm q m ++ [i])).length ∧ (b :: (encModrm q m ++ [i])).length ≤ 6 := by
  have h := encModrm_length q m
  simp only [List.length_cons, List.length_append, List.length_nil]
  omega

theorem modrmWord (b : Byte) (q : BitVec 3) (m : Rm (BitVec 3)) (i : Word) :
    1 ≤ (b :: (encModrm q m ++ leBytes i)).length ∧ (b :: (encModrm q m ++ leBytes i)).length ≤ 6 := by
  have h := encModrm_length q m
  simp only [List.length_cons, List.length_append, leBytes, List.length_nil]
  omega

theorem addEbGb (m : Rm Reg8) (r : Reg8) : Statement (.addEbGb m r) := fun _ => modrm _ _ _
theorem addEvGv (m : Rm Reg16) (r : Reg16) : Statement (.addEvGv m r) := fun _ => modrm _ _ _
theorem addGbEb (r : Reg8) (m : Rm Reg8) : Statement (.addGbEb r m) := fun _ => modrm _ _ _
theorem addGvEv (r : Reg16) (m : Rm Reg16) : Statement (.addGvEv r m) := fun _ => modrm _ _ _
theorem addAlIb (i : Byte) : Statement (.addAlIb i) := fun _ => short rfl rfl
theorem addAxIv (i : Word) : Statement (.addAxIv i) := fun _ => short rfl rfl
theorem addEbIb (m : Rm Reg8) (i : Byte) : Statement (.addEbIb m i) := fun _ => modrmByte _ _ _ _
theorem addEvIv (m : Rm Reg16) (i : Word) : Statement (.addEvIv m i) := fun _ => modrmWord _ _ _ _
theorem addEvSb (m : Rm Reg16) (i : Byte) : Statement (.addEvSb m i) := fun _ => modrmByte _ _ _ _
theorem orEbGb (m : Rm Reg8) (r : Reg8) : Statement (.orEbGb m r) := fun _ => modrm _ _ _
theorem orEvGv (m : Rm Reg16) (r : Reg16) : Statement (.orEvGv m r) := fun _ => modrm _ _ _
theorem orGbEb (r : Reg8) (m : Rm Reg8) : Statement (.orGbEb r m) := fun _ => modrm _ _ _
theorem orGvEv (r : Reg16) (m : Rm Reg16) : Statement (.orGvEv r m) := fun _ => modrm _ _ _
theorem orAlIb (i : Byte) : Statement (.orAlIb i) := fun _ => short rfl rfl
theorem orAxIv (i : Word) : Statement (.orAxIv i) := fun _ => short rfl rfl
theorem orEbIb (m : Rm Reg8) (i : Byte) : Statement (.orEbIb m i) := fun _ => modrmByte _ _ _ _
theorem orEvIv (m : Rm Reg16) (i : Word) : Statement (.orEvIv m i) := fun _ => modrmWord _ _ _ _
theorem orEvSb (m : Rm Reg16) (i : Byte) : Statement (.orEvSb m i) := fun _ => modrmByte _ _ _ _
theorem adcEbGb (m : Rm Reg8) (r : Reg8) : Statement (.adcEbGb m r) := fun _ => modrm _ _ _
theorem adcEvGv (m : Rm Reg16) (r : Reg16) : Statement (.adcEvGv m r) := fun _ => modrm _ _ _
theorem adcGbEb (r : Reg8) (m : Rm Reg8) : Statement (.adcGbEb r m) := fun _ => modrm _ _ _
theorem adcGvEv (r : Reg16) (m : Rm Reg16) : Statement (.adcGvEv r m) := fun _ => modrm _ _ _
theorem adcAlIb (i : Byte) : Statement (.adcAlIb i) := fun _ => short rfl rfl
theorem adcAxIv (i : Word) : Statement (.adcAxIv i) := fun _ => short rfl rfl
theorem adcEbIb (m : Rm Reg8) (i : Byte) : Statement (.adcEbIb m i) := fun _ => modrmByte _ _ _ _
theorem adcEvIv (m : Rm Reg16) (i : Word) : Statement (.adcEvIv m i) := fun _ => modrmWord _ _ _ _
theorem adcEvSb (m : Rm Reg16) (i : Byte) : Statement (.adcEvSb m i) := fun _ => modrmByte _ _ _ _
theorem sbbEbGb (m : Rm Reg8) (r : Reg8) : Statement (.sbbEbGb m r) := fun _ => modrm _ _ _
theorem sbbEvGv (m : Rm Reg16) (r : Reg16) : Statement (.sbbEvGv m r) := fun _ => modrm _ _ _
theorem sbbGbEb (r : Reg8) (m : Rm Reg8) : Statement (.sbbGbEb r m) := fun _ => modrm _ _ _
theorem sbbGvEv (r : Reg16) (m : Rm Reg16) : Statement (.sbbGvEv r m) := fun _ => modrm _ _ _
theorem sbbAlIb (i : Byte) : Statement (.sbbAlIb i) := fun _ => short rfl rfl
theorem sbbAxIv (i : Word) : Statement (.sbbAxIv i) := fun _ => short rfl rfl
theorem sbbEbIb (m : Rm Reg8) (i : Byte) : Statement (.sbbEbIb m i) := fun _ => modrmByte _ _ _ _
theorem sbbEvIv (m : Rm Reg16) (i : Word) : Statement (.sbbEvIv m i) := fun _ => modrmWord _ _ _ _
theorem sbbEvSb (m : Rm Reg16) (i : Byte) : Statement (.sbbEvSb m i) := fun _ => modrmByte _ _ _ _
theorem andEbGb (m : Rm Reg8) (r : Reg8) : Statement (.andEbGb m r) := fun _ => modrm _ _ _
theorem andEvGv (m : Rm Reg16) (r : Reg16) : Statement (.andEvGv m r) := fun _ => modrm _ _ _
theorem andGbEb (r : Reg8) (m : Rm Reg8) : Statement (.andGbEb r m) := fun _ => modrm _ _ _
theorem andGvEv (r : Reg16) (m : Rm Reg16) : Statement (.andGvEv r m) := fun _ => modrm _ _ _
theorem andAlIb (i : Byte) : Statement (.andAlIb i) := fun _ => short rfl rfl
theorem andAxIv (i : Word) : Statement (.andAxIv i) := fun _ => short rfl rfl
theorem andEbIb (m : Rm Reg8) (i : Byte) : Statement (.andEbIb m i) := fun _ => modrmByte _ _ _ _
theorem andEvIv (m : Rm Reg16) (i : Word) : Statement (.andEvIv m i) := fun _ => modrmWord _ _ _ _
theorem andEvSb (m : Rm Reg16) (i : Byte) : Statement (.andEvSb m i) := fun _ => modrmByte _ _ _ _
theorem subEbGb (m : Rm Reg8) (r : Reg8) : Statement (.subEbGb m r) := fun _ => modrm _ _ _
theorem subEvGv (m : Rm Reg16) (r : Reg16) : Statement (.subEvGv m r) := fun _ => modrm _ _ _
theorem subGbEb (r : Reg8) (m : Rm Reg8) : Statement (.subGbEb r m) := fun _ => modrm _ _ _
theorem subGvEv (r : Reg16) (m : Rm Reg16) : Statement (.subGvEv r m) := fun _ => modrm _ _ _
theorem subAlIb (i : Byte) : Statement (.subAlIb i) := fun _ => short rfl rfl
theorem subAxIv (i : Word) : Statement (.subAxIv i) := fun _ => short rfl rfl
theorem subEbIb (m : Rm Reg8) (i : Byte) : Statement (.subEbIb m i) := fun _ => modrmByte _ _ _ _
theorem subEvIv (m : Rm Reg16) (i : Word) : Statement (.subEvIv m i) := fun _ => modrmWord _ _ _ _
theorem subEvSb (m : Rm Reg16) (i : Byte) : Statement (.subEvSb m i) := fun _ => modrmByte _ _ _ _
theorem xorEbGb (m : Rm Reg8) (r : Reg8) : Statement (.xorEbGb m r) := fun _ => modrm _ _ _
theorem xorEvGv (m : Rm Reg16) (r : Reg16) : Statement (.xorEvGv m r) := fun _ => modrm _ _ _
theorem xorGbEb (r : Reg8) (m : Rm Reg8) : Statement (.xorGbEb r m) := fun _ => modrm _ _ _
theorem xorGvEv (r : Reg16) (m : Rm Reg16) : Statement (.xorGvEv r m) := fun _ => modrm _ _ _
theorem xorAlIb (i : Byte) : Statement (.xorAlIb i) := fun _ => short rfl rfl
theorem xorAxIv (i : Word) : Statement (.xorAxIv i) := fun _ => short rfl rfl
theorem xorEbIb (m : Rm Reg8) (i : Byte) : Statement (.xorEbIb m i) := fun _ => modrmByte _ _ _ _
theorem xorEvIv (m : Rm Reg16) (i : Word) : Statement (.xorEvIv m i) := fun _ => modrmWord _ _ _ _
theorem xorEvSb (m : Rm Reg16) (i : Byte) : Statement (.xorEvSb m i) := fun _ => modrmByte _ _ _ _
theorem cmpEbGb (m : Rm Reg8) (r : Reg8) : Statement (.cmpEbGb m r) := fun _ => modrm _ _ _
theorem cmpEvGv (m : Rm Reg16) (r : Reg16) : Statement (.cmpEvGv m r) := fun _ => modrm _ _ _
theorem cmpGbEb (r : Reg8) (m : Rm Reg8) : Statement (.cmpGbEb r m) := fun _ => modrm _ _ _
theorem cmpGvEv (r : Reg16) (m : Rm Reg16) : Statement (.cmpGvEv r m) := fun _ => modrm _ _ _
theorem cmpAlIb (i : Byte) : Statement (.cmpAlIb i) := fun _ => short rfl rfl
theorem cmpAxIv (i : Word) : Statement (.cmpAxIv i) := fun _ => short rfl rfl
theorem cmpEbIb (m : Rm Reg8) (i : Byte) : Statement (.cmpEbIb m i) := fun _ => modrmByte _ _ _ _
theorem cmpEvIv (m : Rm Reg16) (i : Word) : Statement (.cmpEvIv m i) := fun _ => modrmWord _ _ _ _
theorem cmpEvSb (m : Rm Reg16) (i : Byte) : Statement (.cmpEvSb m i) := fun _ => modrmByte _ _ _ _
theorem testEbGb (m : Rm Reg8) (r : Reg8) : Statement (.testEbGb m r) := fun _ => modrm _ _ _
theorem testEvGv (m : Rm Reg16) (r : Reg16) : Statement (.testEvGv m r) := fun _ => modrm _ _ _
theorem testAlIb (i : Byte) : Statement (.testAlIb i) := fun _ => short rfl rfl
theorem testAxIv (i : Word) : Statement (.testAxIv i) := fun _ => short rfl rfl
theorem testEbIb (m : Rm Reg8) (i : Byte) : Statement (.testEbIb m i) := fun _ => modrmByte _ _ _ _
theorem testEvIv (m : Rm Reg16) (i : Word) : Statement (.testEvIv m i) := fun _ => modrmWord _ _ _ _
theorem notEb (m : Rm Reg8) : Statement (.notEb m) := fun _ => modrm _ _ _
theorem notEv (m : Rm Reg16) : Statement (.notEv m) := fun _ => modrm _ _ _
theorem negEb (m : Rm Reg8) : Statement (.negEb m) := fun _ => modrm _ _ _
theorem negEv (m : Rm Reg16) : Statement (.negEv m) := fun _ => modrm _ _ _
theorem incEb (m : Rm Reg8) : Statement (.incEb m) := fun _ => modrm _ _ _
theorem incEv (m : Rm Reg16) : Statement (.incEv m) := fun _ => modrm _ _ _
theorem incR16 (r : Reg16) : Statement (.incR16 r) := fun _ => short rfl rfl
theorem decEb (m : Rm Reg8) : Statement (.decEb m) := fun _ => modrm _ _ _
theorem decEv (m : Rm Reg16) : Statement (.decEv m) := fun _ => modrm _ _ _
theorem decR16 (r : Reg16) : Statement (.decR16 r) := fun _ => short rfl rfl
theorem movEbGb (m : Rm Reg8) (r : Reg8) : Statement (.movEbGb m r) := fun _ => modrm _ _ _
theorem movEvGv (m : Rm Reg16) (r : Reg16) : Statement (.movEvGv m r) := fun _ => modrm _ _ _
theorem movGbEb (r : Reg8) (m : Rm Reg8) : Statement (.movGbEb r m) := fun _ => modrm _ _ _
theorem movGvEv (r : Reg16) (m : Rm Reg16) : Statement (.movGvEv r m) := fun _ => modrm _ _ _
theorem movEbIb (m : Rm Reg8) (i : Byte) : Statement (.movEbIb m i) := fun _ => modrmByte _ _ _ _
theorem movEvIv (m : Rm Reg16) (i : Word) : Statement (.movEvIv m i) := fun _ => modrmWord _ _ _ _
theorem movR8Ib (r : Reg8) (i : Byte) : Statement (.movR8Ib r i) := fun _ => short rfl rfl
theorem movR16Iv (r : Reg16) (i : Word) : Statement (.movR16Iv r i) := fun _ => short rfl rfl
theorem movSwEw (g : SegReg) (m : Rm Reg16) : Statement (.movSwEw g m) := fun _ => modrm _ _ _
theorem movEwSw (m : Rm Reg16) (g : SegReg) : Statement (.movEwSw m g) := fun _ => modrm _ _ _
theorem movAlOb (a : Word) : Statement (.movAlOb a) := fun _ => short rfl rfl
theorem movAxOv (a : Word) : Statement (.movAxOv a) := fun _ => short rfl rfl
theorem movObAl (a : Word) : Statement (.movObAl a) := fun _ => short rfl rfl
theorem movOvAx (a : Word) : Statement (.movOvAx a) := fun _ => short rfl rfl
theorem xchgEbGb (m : Rm Reg8) (r : Reg8) : Statement (.xchgEbGb m r) := fun _ => modrm _ _ _
theorem xchgEvGv (m : Rm Reg16) (r : Reg16) : Statement (.xchgEvGv m r) := fun _ => modrm _ _ _
theorem xchgAxR16 (r : Reg16) : Statement (.xchgAxR16 r) := fun _ => short rfl rfl
theorem lea (r : Reg16) (p : MemOp) : Statement (.lea r p) := fun _ => modrm _ _ _
theorem lds (r : Reg16) (p : MemOp) : Statement (.lds r p) := fun _ => modrm _ _ _
theorem les (r : Reg16) (p : MemOp) : Statement (.les r p) := fun _ => modrm _ _ _
theorem xlat : Statement .xlat := fun _ => short rfl rfl
theorem lahf : Statement .lahf := fun _ => short rfl rfl
theorem sahf : Statement .sahf := fun _ => short rfl rfl
theorem cbw : Statement .cbw := fun _ => short rfl rfl
theorem cwd : Statement .cwd := fun _ => short rfl rfl
theorem mulEb (m : Rm Reg8) : Statement (.mulEb m) := fun _ => modrm _ _ _
theorem mulEv (m : Rm Reg16) : Statement (.mulEv m) := fun _ => modrm _ _ _
theorem imulEb (m : Rm Reg8) : Statement (.imulEb m) := fun _ => modrm _ _ _
theorem imulEv (m : Rm Reg16) : Statement (.imulEv m) := fun _ => modrm _ _ _
theorem divEb (m : Rm Reg8) : Statement (.divEb m) := fun _ => modrm _ _ _
theorem divEv (m : Rm Reg16) : Statement (.divEv m) := fun _ => modrm _ _ _
theorem idivEb (m : Rm Reg8) : Statement (.idivEb m) := fun _ => modrm _ _ _
theorem idivEv (m : Rm Reg16) : Statement (.idivEv m) := fun _ => modrm _ _ _
theorem daa : Statement .daa := fun _ => short rfl rfl
theorem das : Statement .das := fun _ => short rfl rfl
theorem aaa : Statement .aaa := fun _ => short rfl rfl
theorem aas : Statement .aas := fun _ => short rfl rfl
theorem aam (i : Byte) : Statement (.aam i) := fun _ => short rfl rfl
theorem aad (i : Byte) : Statement (.aad i) := fun _ => short rfl rfl
theorem jo (d : Byte) : Statement (.jo d) := fun _ => short rfl rfl
theorem jno (d : Byte) : Statement (.jno d) := fun _ => short rfl rfl
theorem jb (d : Byte) : Statement (.jb d) := fun _ => short rfl rfl
theorem jae (d : Byte) : Statement (.jae d) := fun _ => short rfl rfl
theorem je (d : Byte) : Statement (.je d) := fun _ => short rfl rfl
theorem jne (d : Byte) : Statement (.jne d) := fun _ => short rfl rfl
theorem jbe (d : Byte) : Statement (.jbe d) := fun _ => short rfl rfl
theorem ja (d : Byte) : Statement (.ja d) := fun _ => short rfl rfl
theorem js (d : Byte) : Statement (.js d) := fun _ => short rfl rfl
theorem jns (d : Byte) : Statement (.jns d) := fun _ => short rfl rfl
theorem jp (d : Byte) : Statement (.jp d) := fun _ => short rfl rfl
theorem jnp (d : Byte) : Statement (.jnp d) := fun _ => short rfl rfl
theorem jl (d : Byte) : Statement (.jl d) := fun _ => short rfl rfl
theorem jge (d : Byte) : Statement (.jge d) := fun _ => short rfl rfl
theorem jle (d : Byte) : Statement (.jle d) := fun _ => short rfl rfl
theorem jg (d : Byte) : Statement (.jg d) := fun _ => short rfl rfl
theorem jmpShort (d : Byte) : Statement (.jmpShort d) := fun _ => short rfl rfl
theorem jmpNear (d : Word) : Statement (.jmpNear d) := fun _ => short rfl rfl
theorem jmpFar (off : Word) (sg : Word) : Statement (.jmpFar off sg) := fun _ => short rfl rfl
theorem jmpEv (m : Rm Reg16) : Statement (.jmpEv m) := fun _ => modrm _ _ _
theorem jmpMp (p : MemOp) : Statement (.jmpMp p) := fun _ => modrm _ _ _
theorem callNear (d : Word) : Statement (.callNear d) := fun _ => short rfl rfl
theorem callFar (off : Word) (sg : Word) : Statement (.callFar off sg) := fun _ => short rfl rfl
theorem callEv (m : Rm Reg16) : Statement (.callEv m) := fun _ => modrm _ _ _
theorem callMp (p : MemOp) : Statement (.callMp p) := fun _ => modrm _ _ _
theorem ret : Statement .ret := fun _ => short rfl rfl
theorem retIw (n : Word) : Statement (.retIw n) := fun _ => short rfl rfl
theorem retf : Statement .retf := fun _ => short rfl rfl
theorem retfIw (n : Word) : Statement (.retfIw n) := fun _ => short rfl rfl
theorem loopJb (d : Byte) : Statement (.loopJb d) := fun _ => short rfl rfl
theorem loopz (d : Byte) : Statement (.loopz d) := fun _ => short rfl rfl
theorem loopnz (d : Byte) : Statement (.loopnz d) := fun _ => short rfl rfl
theorem jcxz (d : Byte) : Statement (.jcxz d) := fun _ => short rfl rfl
theorem movsb : Statement .movsb := fun _ => short rfl rfl
theorem movsw : Statement .movsw := fun _ => short rfl rfl
theorem cmpsb : Statement .cmpsb := fun _ => short rfl rfl
theorem cmpsw : Statement .cmpsw := fun _ => short rfl rfl
theorem stosb : Statement .stosb := fun _ => short rfl rfl
theorem stosw : Statement .stosw := fun _ => short rfl rfl
theorem lodsb : Statement .lodsb := fun _ => short rfl rfl
theorem lodsw : Statement .lodsw := fun _ => short rfl rfl
theorem scasb : Statement .scasb := fun _ => short rfl rfl
theorem scasw : Statement .scasw := fun _ => short rfl rfl
theorem rolEb1 (m : Rm Reg8) : Statement (.rolEb1 m) := fun _ => modrm _ _ _
theorem rolEv1 (m : Rm Reg16) : Statement (.rolEv1 m) := fun _ => modrm _ _ _
theorem rolEbCl (m : Rm Reg8) : Statement (.rolEbCl m) := fun _ => modrm _ _ _
theorem rolEvCl (m : Rm Reg16) : Statement (.rolEvCl m) := fun _ => modrm _ _ _
theorem rorEb1 (m : Rm Reg8) : Statement (.rorEb1 m) := fun _ => modrm _ _ _
theorem rorEv1 (m : Rm Reg16) : Statement (.rorEv1 m) := fun _ => modrm _ _ _
theorem rorEbCl (m : Rm Reg8) : Statement (.rorEbCl m) := fun _ => modrm _ _ _
theorem rorEvCl (m : Rm Reg16) : Statement (.rorEvCl m) := fun _ => modrm _ _ _
theorem rclEb1 (m : Rm Reg8) : Statement (.rclEb1 m) := fun _ => modrm _ _ _
theorem rclEv1 (m : Rm Reg16) : Statement (.rclEv1 m) := fun _ => modrm _ _ _
theorem rclEbCl (m : Rm Reg8) : Statement (.rclEbCl m) := fun _ => modrm _ _ _
theorem rclEvCl (m : Rm Reg16) : Statement (.rclEvCl m) := fun _ => modrm _ _ _
theorem rcrEb1 (m : Rm Reg8) : Statement (.rcrEb1 m) := fun _ => modrm _ _ _
theorem rcrEv1 (m : Rm Reg16) : Statement (.rcrEv1 m) := fun _ => modrm _ _ _
theorem rcrEbCl (m : Rm Reg8) : Statement (.rcrEbCl m) := fun _ => modrm _ _ _
theorem rcrEvCl (m : Rm Reg16) : Statement (.rcrEvCl m) := fun _ => modrm _ _ _
theorem shlEb1 (m : Rm Reg8) : Statement (.shlEb1 m) := fun _ => modrm _ _ _
theorem shlEv1 (m : Rm Reg16) : Statement (.shlEv1 m) := fun _ => modrm _ _ _
theorem shlEbCl (m : Rm Reg8) : Statement (.shlEbCl m) := fun _ => modrm _ _ _
theorem shlEvCl (m : Rm Reg16) : Statement (.shlEvCl m) := fun _ => modrm _ _ _
theorem shrEb1 (m : Rm Reg8) : Statement (.shrEb1 m) := fun _ => modrm _ _ _
theorem shrEv1 (m : Rm Reg16) : Statement (.shrEv1 m) := fun _ => modrm _ _ _
theorem shrEbCl (m : Rm Reg8) : Statement (.shrEbCl m) := fun _ => modrm _ _ _
theorem shrEvCl (m : Rm Reg16) : Statement (.shrEvCl m) := fun _ => modrm _ _ _
theorem sarEb1 (m : Rm Reg8) : Statement (.sarEb1 m) := fun _ => modrm _ _ _
theorem sarEv1 (m : Rm Reg16) : Statement (.sarEv1 m) := fun _ => modrm _ _ _
theorem sarEbCl (m : Rm Reg8) : Statement (.sarEbCl m) := fun _ => modrm _ _ _
theorem sarEvCl (m : Rm Reg16) : Statement (.sarEvCl m) := fun _ => modrm _ _ _
theorem pushR16 (r : Reg16) : Statement (.pushR16 r) := fun _ => short rfl rfl
theorem pushSreg (g : SegReg) : Statement (.pushSreg g) := fun _ => short rfl rfl
theorem pushEv (m : Rm Reg16) : Statement (.pushEv m) := fun _ => modrm _ _ _
theorem popR16 (r : Reg16) : Statement (.popR16 r) := fun _ => short rfl rfl
theorem popSreg (g : SegReg) : Statement (.popSreg g) := fun _ => short rfl rfl
theorem popEv (m : Rm Reg16) : Statement (.popEv m) := fun _ => modrm _ _ _
theorem pushf : Statement .pushf := fun _ => short rfl rfl
theorem popf : Statement .popf := fun _ => short rfl rfl
theorem inAlIb (i : Byte) : Statement (.inAlIb i) := fun _ => short rfl rfl
theorem inAlDx : Statement .inAlDx := fun _ => short rfl rfl
theorem outIbAl (i : Byte) : Statement (.outIbAl i) := fun _ => short rfl rfl
theorem outDxAl : Statement .outDxAl := fun _ => short rfl rfl
theorem int3 : Statement .int3 := fun _ => short rfl rfl
theorem intIb (i : Byte) : Statement (.intIb i) := fun _ => short rfl rfl
theorem into : Statement .into := fun _ => short rfl rfl
theorem iret : Statement .iret := fun _ => short rfl rfl
theorem clc : Statement .clc := fun _ => short rfl rfl
theorem stc : Statement .stc := fun _ => short rfl rfl
theorem cmc : Statement .cmc := fun _ => short rfl rfl
theorem cli : Statement .cli := fun _ => short rfl rfl
theorem sti : Statement .sti := fun _ => short rfl rfl
theorem cld : Statement .cld := fun _ => short rfl rfl
theorem std : Statement .std := fun _ => short rfl rfl
theorem hlt : Statement .hlt := fun _ => short rfl rfl
theorem wait : Statement .wait := fun _ => short rfl rfl
theorem nop : Statement .nop := fun _ => short rfl rfl
theorem esc (k : BitVec 3) (q : BitVec 3) (m : Rm Reg16) : Statement (.esc k q m) := fun _ => modrm _ _ _
theorem pfxEs : Statement .pfxEs := fun _ => short rfl rfl
theorem pfxCs : Statement .pfxCs := fun _ => short rfl rfl
theorem pfxSs : Statement .pfxSs := fun _ => short rfl rfl
theorem pfxDs : Statement .pfxDs := fun _ => short rfl rfl
theorem pfxLock : Statement .pfxLock := fun _ => short rfl rfl
theorem pfxRepnz : Statement .pfxRepnz := fun _ => short rfl rfl
theorem pfxRepz : Statement .pfxRepz := fun _ => short rfl rfl
theorem invalidOp (b : Byte) : Statement (.invalidOp b) := fun _ => short rfl rfl
theorem invalidSub (b : Byte) (q : BitVec 3) (m : Rm (BitVec 3)) : Statement (.invalidSub b q m) := fun _ => modrm _ _ _
theorem invalidForm (b : Byte) (q : BitVec 3) (n : BitVec 3) : Statement (.invalidForm b q n) := fun _ => modrm _ _ _

end Sys2Proof.Laws.EncodedLength
end

