-- ==== Sys2Proof/Machine/HostMoves.lean ====
section
/-! DEFINITION. What the host may do between two fetches (70_reset_and_hazards.md R730; log 12). No step
makes a host move, and a claim about a run holds for runs without them unless it says otherwise. -/

namespace Sys2Proof.Machine

/-- One interaction of the host between two calls of `fetch` (70_reset_and_hazards.md R730). -/
inductive HostMove where
  /-- `install_bus` (R700) -/
  | installBus
  /-- the named setter of a word register -/
  | setRegister (r : Reg16) (v : Word)
  /-- the named setter of a segment register -/
  | setSegment (g : SegReg) (v : Word)
  /-- the named setter of IP -/
  | setIp (v : Word)
  /-- the named setter of a flag -/
  | setFlag (n : FlagName) (b : Bool)
  /-- another bus master writes a byte of memory (20_memory.md R96) -/
  | writeMemory (pa : PAddr) (v : Byte)
  /-- the platform's map of memory, and what is known of its contents, such as a ROM's (20_memory.md R94) -/
  | setMemory (windows : List BusWindow) (cells : List (PAddr × Byte))
  /-- a device, or whatever stands behind an address no memory holds, makes the answer to a later read ready
  (20_memory.md R80) -/
  | answerMemory (b : Byte)
  /-- the interrupt controller's pending vectors, highest priority first (60_exceptions.md R610) -/
  | setRequests (q : List Byte)
  /-- a device makes the answer to a later port read ready (20_memory.md R80) -/
  | answerPort (b : Byte)
  deriving DecidableEq, Repr

/-- The bus with a new map and the bytes its memory is known to hold; a cell behind a device window is left out. -/
def Bus.remap (b : Bus) (ws : List BusWindow) (cs : List (PAddr × Byte)) : Bus :=
  { b with
    windows := ws
    mem := (cs.filter fun c => kindIn ws c.1.toNat != .device).foldl (fun m c => memWrite m c.1.toNat c.2) [] }

/-- The state after a host move (70_reset_and_hazards.md R730). -/
def State.hostMove (s : State) (h : HostMove) : State :=
  match h with
  | .installBus => { s with busInstalled := true }
  | .setRegister r v => s.setR16 r v
  | .setSegment g v => s.setSreg g v
  | .setIp v => s.setIp v
  | .setFlag n b => s.setFlags (s.flags.set n b)
  | .writeMemory pa v => { s with bus := s.bus.store pa v }
  | .setMemory ws cs => { s with bus := s.bus.remap ws cs }
  | .answerMemory b => { s with bus := { s.bus with memIn := s.bus.memIn ++ [b] } }
  | .setRequests q => { s with irq := q }
  | .answerPort b => { s with bus := { s.bus with portIn := s.bus.portIn ++ [b] } }

end Sys2Proof.Machine
end

