-- ==== Sys2Proof/Tests/Slice0.lean ====
section
/-! SUPPORT. Tests of the model's own work: the well-formedness checks, every constructor's decoding on a word
written out from the spec's encodings, one step on the spec's own vectors (95_test_vectors.md), and for every
statement with premises a state and operands that meet them. -/

namespace Sys2Proof.Machine.Tests

/-! ## Helpers -/

/-- The start state the vectors share (95_test_vectors.md section 2). -/
def start : State :=
  { State.reset with segs := ⟨0x1000, 0, 0, 0⟩, regs := { Regs.zero with sp := 0x1000 } }

/-- Bytes put at a physical address. -/
def poke (a : PAddr) : List Byte → State → State
  | [], s => s
  | b :: bs, s => poke (a + 1) bs (s.hostMove (.writeMemory a b))

/-- The bytes memory is known to hold at a physical address. -/
def peek (a : PAddr) : Nat → State → List Byte
  | 0, _ => []
  | n + 1, s => (s.memByte a).toList ++ peek (a + 1) n s

/-- One flag set by name. -/
def flagged (n : FlagName) (b : Bool) (s : State) : State := s.setFlags (s.flags.set n b)

/-- A request pending at the interrupt controller. -/
def pending (v : Byte) (s : State) : State := s.hostMove (.setRequests [v])

/-- An answer ready for the next port read. -/
def answer (b : Byte) (s : State) : State := s.hostMove (.answerPort b)

/-- A fault record of this kind, opcode, CS and IP. -/
def faulted (k : FaultKind) (b : Byte) (cs ip : Word) (s : State) : Bool :=
  match s.faultRec with
  | some r => r.kind == k && r.opcode == b && r.cs == cs && r.ip == ip
  | none => false

/-- One step with the bytes at CS:IP answers a next state of which `p` holds. -/
def after (bs : List Byte) (s : State) (p : State → Bool) : Bool :=
  match step (s.placeBytes s.ip bs) with
  | .next t => p t
  | .fault _ => false
  | .refused _ => false

/-! ## Well-formedness -/

/-- Each check refuses an ill-formed term: `[BP]` without a displacement, MOV and POP to CS, XCHG AX,AX (it is
NOP), an opcode byte, a ModRM reg field, an operand and a register form that are not invalid. -/
theorem test_wf_refuses :
    Instr.wf (.notEv (.mem (.base .bp))) = false ∧ Instr.wf (.lea .ax (.base .bp)) = false ∧
    Instr.wf (.movSwEw .cs (.reg .ax)) = false ∧ Instr.wf (.popSreg .cs) = false ∧
    Instr.wf (.xchgAxR16 .ax) = false ∧ Instr.wf (.invalidOp 0x90) = false ∧
    Instr.wf (.invalidSub 0xF6 0 (.reg 0)) = false ∧ Instr.wf (.invalidSub 0xF6 1 (.mem (.base .bp))) = false ∧
    Instr.wf (.invalidForm 0xFF 2 0) = false ∧ Instr.wf (.invalidForm 0x8B 0 0) = false := by decide

theorem test_wf_accepts :
    Instr.wf (.notEv (.mem (.disp8 .bp 0))) = true ∧ Instr.wf (.notEv (.mem (.direct 0))) = true ∧
    Instr.wf (.movSwEw .ss (.reg .ax)) = true ∧ Instr.wf (.movEwSw (.reg .ax) .cs) = true ∧
    Instr.wf (.pushSreg .cs) = true ∧ Instr.wf (.xchgAxR16 .cx) = true ∧ Instr.wf (.invalidOp 0x60) = true ∧
    Instr.wf (.invalidSub 0x8E 1 (.reg 0)) = true ∧ Instr.wf (.invalidSub 0x8C 4 (.reg 0)) = true ∧
    Instr.wf (.invalidForm 0xFF 3 0) = true ∧ Instr.wf (.invalidForm 0xFF 5 7) = true := by decide

/-! ## Decoding, a word for every constructor -/

/-- Words from 41_arith_logic.md R254; 30_encoding.md R142, R143. -/
theorem test_decode_alu_add :
    decode [0x00, 0x07] = .ok (.addEbGb (.mem (.base .bx)) .al, []) ∧
    decode [0x01, 0xD8] = .ok (.addEvGv (.reg .ax) .bx, []) ∧
    decode [0x02, 0xC1] = .ok (.addGbEb .al (.reg .cl), []) ∧
    decode [0x03, 0x46, 0x02] = .ok (.addGvEv .ax (.mem (.disp8 .bp 0x02)), []) ∧
    decode [0x04, 0x64] = .ok (.addAlIb 0x64, []) ∧
    decode [0x05, 0x01, 0x00] = .ok (.addAxIv 0x0001, []) ∧
    decode [0x80, 0xC3, 0x05] = .ok (.addEbIb (.reg .bl) 0x05, []) ∧
    decode [0x81, 0x06, 0x00, 0x02, 0x34, 0x12] = .ok (.addEvIv (.mem (.direct 0x0200)) 0x1234, []) ∧
    decode [0x83, 0x47, 0x02, 0xFE] = .ok (.addEvSb (.mem (.disp8 .bx 0x02)) 0xFE, []) :=
  ⟨rfl, rfl, rfl, rfl, rfl, rfl, rfl, rfl, rfl⟩

/-- Words from 41_arith_logic.md R260. -/
theorem test_decode_alu_or :
    decode [0x08, 0xE0] = .ok (.orEbGb (.reg .al) .ah, []) ∧
    decode [0x09, 0x3C] = .ok (.orEvGv (.mem (.base .si)) .di, []) ∧
    decode [0x0A, 0x15] = .ok (.orGbEb .dl (.mem (.base .di)), []) ∧
    decode [0x0B, 0xEC] = .ok (.orGvEv .bp (.reg .sp), []) ∧
    decode [0x0C, 0x80] = .ok (.orAlIb 0x80, []) ∧
    decode [0x0D, 0x0F, 0xF0] = .ok (.orAxIv 0xF00F, []) ∧
    decode [0x80, 0xC9, 0x80] = .ok (.orEbIb (.reg .cl) 0x80, []) ∧
    decode [0x81, 0xCE, 0xCD, 0xAB] = .ok (.orEvIv (.reg .si) 0xABCD, []) ∧
    decode [0x83, 0xC8, 0x01] = .ok (.orEvSb (.reg .ax) 0x01, []) :=
  ⟨rfl, rfl, rfl, rfl, rfl, rfl, rfl, rfl, rfl⟩

/-- Words from 41_arith_logic.md R255. -/
theorem test_decode_alu_adc :
    decode [0x10, 0x00] = .ok (.adcEbGb (.mem (.base .bxSi)) .al, []) ∧
    decode [0x11, 0x01] = .ok (.adcEvGv (.mem (.base .bxDi)) .ax, []) ∧
    decode [0x12, 0x02] = .ok (.adcGbEb .al (.mem (.base .bpSi)), []) ∧
    decode [0x13, 0x03] = .ok (.adcGvEv .ax (.mem (.base .bpDi)), []) ∧
    decode [0x14, 0x7F] = .ok (.adcAlIb 0x7F, []) ∧
    decode [0x15, 0x00, 0x80] = .ok (.adcAxIv 0x8000, []) ∧
    decode [0x80, 0xD0, 0x01] = .ok (.adcEbIb (.reg .al) 0x01, []) ∧
    decode [0x81, 0xD1, 0x02, 0x00] = .ok (.adcEvIv (.reg .cx) 0x0002, []) ∧
    decode [0x83, 0xD2, 0xFF] = .ok (.adcEvSb (.reg .dx) 0xFF, []) :=
  ⟨rfl, rfl, rfl, rfl, rfl, rfl, rfl, rfl, rfl⟩

/-- Words from 41_arith_logic.md R257. -/
theorem test_decode_alu_sbb :
    decode [0x18, 0x86, 0x34, 0x12] = .ok (.sbbEbGb (.mem (.disp16 .bp 0x1234)) .al, []) ∧
    decode [0x19, 0xC8] = .ok (.sbbEvGv (.reg .ax) .cx, []) ∧
    decode [0x1A, 0x5F, 0x01] = .ok (.sbbGbEb .bl (.mem (.disp8 .bx 0x01)), []) ∧
    decode [0x1B, 0xFF] = .ok (.sbbGvEv .di (.reg .di), []) ∧
    decode [0x1C, 0x00] = .ok (.sbbAlIb 0x00, []) ∧
    decode [0x1D, 0x01, 0x00] = .ok (.sbbAxIv 0x0001, []) ∧
    decode [0x80, 0xDF, 0x10] = .ok (.sbbEbIb (.reg .bh) 0x10, []) ∧
    decode [0x81, 0xDB, 0x00, 0x01] = .ok (.sbbEvIv (.reg .bx) 0x0100, []) ∧
    decode [0x83, 0xD8, 0x01] = .ok (.sbbEvSb (.reg .ax) 0x01, []) :=
  ⟨rfl, rfl, rfl, rfl, rfl, rfl, rfl, rfl, rfl⟩

/-- Words from 41_arith_logic.md R259. -/
theorem test_decode_alu_and :
    decode [0x20, 0xE1] = .ok (.andEbGb (.reg .cl) .ah, []) ∧
    decode [0x21, 0xC3] = .ok (.andEvGv (.reg .bx) .ax, []) ∧
    decode [0x22, 0xC3] = .ok (.andGbEb .al (.reg .bl), []) ∧
    decode [0x23, 0x87, 0x34, 0x12] = .ok (.andGvEv .ax (.mem (.disp16 .bx 0x1234)), []) ∧
    decode [0x24, 0x0F] = .ok (.andAlIb 0x0F, []) ∧
    decode [0x25, 0xFF, 0x00] = .ok (.andAxIv 0x00FF, []) ∧
    decode [0x80, 0xE2, 0xF0] = .ok (.andEbIb (.reg .dl) 0xF0, []) ∧
    decode [0x81, 0xE7, 0xFE, 0xFF] = .ok (.andEvIv (.reg .di) 0xFFFE, []) ∧
    decode [0x83, 0xE0, 0xF0] = .ok (.andEvSb (.reg .ax) 0xF0, []) :=
  ⟨rfl, rfl, rfl, rfl, rfl, rfl, rfl, rfl, rfl⟩

/-- Words from 41_arith_logic.md R256. -/
theorem test_decode_alu_sub :
    decode [0x28, 0xD0] = .ok (.subEbGb (.reg .al) .dl, []) ∧
    decode [0x29, 0xC0] = .ok (.subEvGv (.reg .ax) .ax, []) ∧
    decode [0x2A, 0x06, 0x00, 0x03] = .ok (.subGbEb .al (.mem (.direct 0x0300)), []) ∧
    decode [0x2B, 0xF7] = .ok (.subGvEv .si (.reg .di), []) ∧
    decode [0x2C, 0x01] = .ok (.subAlIb 0x01, []) ∧
    decode [0x2D, 0x00, 0x10] = .ok (.subAxIv 0x1000, []) ∧
    decode [0x80, 0xED, 0x02] = .ok (.subEbIb (.reg .ch) 0x02, []) ∧
    decode [0x81, 0xEC, 0x10, 0x00] = .ok (.subEvIv (.reg .sp) 0x0010, []) ∧
    decode [0x83, 0xEC, 0x02] = .ok (.subEvSb (.reg .sp) 0x02, []) :=
  ⟨rfl, rfl, rfl, rfl, rfl, rfl, rfl, rfl, rfl⟩

/-- Words from 41_arith_logic.md R261. -/
theorem test_decode_alu_xor :
    decode [0x30, 0xE4] = .ok (.xorEbGb (.reg .ah) .ah, []) ∧
    decode [0x31, 0xC0] = .ok (.xorEvGv (.reg .ax) .ax, []) ∧
    decode [0x32, 0x04] = .ok (.xorGbEb .al (.mem (.base .si)), []) ∧
    decode [0x33, 0xC9] = .ok (.xorGvEv .cx (.reg .cx), []) ∧
    decode [0x34, 0xFF] = .ok (.xorAlIb 0xFF, []) ∧
    decode [0x35, 0x55, 0xAA] = .ok (.xorAxIv 0xAA55, []) ∧
    decode [0x80, 0xF6, 0x01] = .ok (.xorEbIb (.reg .dh) 0x01, []) ∧
    decode [0x81, 0xF5, 0x00, 0xFF] = .ok (.xorEvIv (.reg .bp) 0xFF00, []) ∧
    decode [0x83, 0xF0, 0xFF] = .ok (.xorEvSb (.reg .ax) 0xFF, []) :=
  ⟨rfl, rfl, rfl, rfl, rfl, rfl, rfl, rfl, rfl⟩

/-- Words from 41_arith_logic.md R258. -/
theorem test_decode_alu_cmp :
    decode [0x38, 0xC8] = .ok (.cmpEbGb (.reg .al) .cl, []) ∧
    decode [0x39, 0x16, 0x00, 0x02] = .ok (.cmpEvGv (.mem (.direct 0x0200)) .dx, []) ∧
    decode [0x3A, 0x4F, 0xFF] = .ok (.cmpGbEb .cl (.mem (.disp8 .bx 0xFF)), []) ∧
    decode [0x3B, 0xC3] = .ok (.cmpGvEv .ax (.reg .bx), []) ∧
    decode [0x3C, 0x07] = .ok (.cmpAlIb 0x07, []) ∧
    decode [0x3D, 0x34, 0x12] = .ok (.cmpAxIv 0x1234, []) ∧
    decode [0x80, 0x3F, 0x00] = .ok (.cmpEbIb (.mem (.base .bx)) 0x00, []) ∧
    decode [0x81, 0xFB, 0x00, 0x80] = .ok (.cmpEvIv (.reg .bx) 0x8000, []) ∧
    decode [0x83, 0xF8, 0xFF] = .ok (.cmpEvSb (.reg .ax) 0xFF, []) :=
  ⟨rfl, rfl, rfl, rfl, rfl, rfl, rfl, rfl, rfl⟩

/-- Words from 41_arith_logic.md R262 to R269; 30_encoding.md R145, R146. -/
theorem test_decode_test_not_neg_inc_dec :
    decode [0x84, 0xC0] = .ok (.testEbGb (.reg .al) .al, []) ∧
    decode [0x85, 0x0F] = .ok (.testEvGv (.mem (.base .bx)) .cx, []) ∧
    decode [0xA8, 0x01] = .ok (.testAlIb 0x01, []) ∧
    decode [0xA9, 0x00, 0x80] = .ok (.testAxIv 0x8000, []) ∧
    decode [0xF6, 0xC3, 0x0F] = .ok (.testEbIb (.reg .bl) 0x0F, []) ∧
    decode [0xF7, 0x47, 0x04, 0x01, 0x00] = .ok (.testEvIv (.mem (.disp8 .bx 0x04)) 0x0001, []) ∧
    decode [0xF6, 0xD1] = .ok (.notEb (.reg .cl), []) ∧
    decode [0xF7, 0x16, 0x00, 0x03] = .ok (.notEv (.mem (.direct 0x0300)), []) ∧
    decode [0xF6, 0xD8] = .ok (.negEb (.reg .al), []) ∧
    decode [0xF7, 0xDA] = .ok (.negEv (.reg .dx), []) ∧
    decode [0xFE, 0x06, 0x00, 0x02] = .ok (.incEb (.mem (.direct 0x0200)), []) ∧
    decode [0xFF, 0x07] = .ok (.incEv (.mem (.base .bx)), []) ∧
    decode [0x44] = .ok (.incR16 .sp, []) ∧
    decode [0xFE, 0xC8] = .ok (.decEb (.reg .al), []) ∧
    decode [0xFF, 0x4E, 0xFE] = .ok (.decEv (.mem (.disp8 .bp 0xFE)), []) ∧
    decode [0x49] = .ok (.decR16 .cx, []) :=
  ⟨rfl, rfl, rfl, rfl, rfl, rfl, rfl, rfl, rfl, rfl, rfl, rfl, rfl, rfl, rfl, rfl⟩

/-- Words from 40_data_movement.md R200 to R206. -/
theorem test_decode_mov :
    decode [0x88, 0x48, 0x04] = .ok (.movEbGb (.mem (.disp8 .bxSi 0x04)) .cl, []) ∧
    decode [0x89, 0xE5] = .ok (.movEvGv (.reg .bp) .sp, []) ∧
    decode [0x8A, 0x26, 0x10, 0x00] = .ok (.movGbEb .ah (.mem (.direct 0x0010)), []) ∧
    decode [0x8B, 0x07] = .ok (.movGvEv .ax (.mem (.base .bx)), []) ∧
    decode [0xC6, 0x07, 0x2A] = .ok (.movEbIb (.mem (.base .bx)) 0x2A, []) ∧
    decode [0xC7, 0x06, 0x00, 0x02, 0x34, 0x12] = .ok (.movEvIv (.mem (.direct 0x0200)) 0x1234, []) ∧
    decode [0xB4, 0x12] = .ok (.movR8Ib .ah 0x12, []) ∧
    decode [0xBF, 0xEF, 0xBE] = .ok (.movR16Iv .di 0xBEEF, []) ∧
    decode [0x8E, 0xD8] = .ok (.movSwEw .ds (.reg .ax), []) ∧
    decode [0x8C, 0xC0] = .ok (.movEwSw (.reg .ax) .es, []) ∧
    decode [0xA0, 0x00, 0x01] = .ok (.movAlOb 0x0100, []) ∧
    decode [0xA1, 0x10, 0x00] = .ok (.movAxOv 0x0010, []) ∧
    decode [0xA2, 0x00, 0x01] = .ok (.movObAl 0x0100, []) ∧
    decode [0xA3, 0xFF, 0xFF] = .ok (.movOvAx 0xFFFF, []) :=
  ⟨rfl, rfl, rfl, rfl, rfl, rfl, rfl, rfl, rfl, rfl, rfl, rfl, rfl, rfl⟩

/-- Words from 40_data_movement.md R207 to R217. -/
theorem test_decode_moves :
    decode [0x86, 0xC4] = .ok (.xchgEbGb (.reg .ah) .al, []) ∧
    decode [0x87, 0x1E, 0x00, 0x02] = .ok (.xchgEvGv (.mem (.direct 0x0200)) .bx, []) ∧
    decode [0x93] = .ok (.xchgAxR16 .bx, []) ∧
    decode [0x8D, 0x47, 0x05] = .ok (.lea .ax (.disp8 .bx 0x05), []) ∧
    decode [0xC5, 0x37] = .ok (.lds .si (.base .bx), []) ∧
    decode [0xC4, 0x1E, 0x00, 0x02] = .ok (.les .bx (.direct 0x0200), []) ∧
    decode [0xD7] = .ok (.xlat, []) ∧
    decode [0x9F] = .ok (.lahf, []) ∧
    decode [0x9E] = .ok (.sahf, []) ∧
    decode [0x98] = .ok (.cbw, []) ∧
    decode [0x99] = .ok (.cwd, []) :=
  ⟨rfl, rfl, rfl, rfl, rfl, rfl, rfl, rfl, rfl, rfl, rfl⟩

/-- Words from 42_muldiv_bcd.md R301 to R311. -/
theorem test_decode_muldiv :
    decode [0xF6, 0xE3] = .ok (.mulEb (.reg .bl), []) ∧
    decode [0xF7, 0xE3] = .ok (.mulEv (.reg .bx), []) ∧
    decode [0xF6, 0xEB] = .ok (.imulEb (.reg .bl), []) ∧
    decode [0xF7, 0x2F] = .ok (.imulEv (.mem (.base .bx)), []) ∧
    decode [0xF6, 0xF3] = .ok (.divEb (.reg .bl), []) ∧
    decode [0xF7, 0xF3] = .ok (.divEv (.reg .bx), []) ∧
    decode [0xF6, 0xFB] = .ok (.idivEb (.reg .bl), []) ∧
    decode [0xF7, 0xF9] = .ok (.idivEv (.reg .cx), []) ∧
    decode [0x27] = .ok (.daa, []) ∧
    decode [0x2F] = .ok (.das, []) ∧
    decode [0x37] = .ok (.aaa, []) ∧
    decode [0x3F] = .ok (.aas, []) ∧
    decode [0xD4, 0x0A] = .ok (.aam 0x0A, []) ∧
    decode [0xD5, 0x0A] = .ok (.aad 0x0A, []) :=
  ⟨rfl, rfl, rfl, rfl, rfl, rfl, rfl, rfl, rfl, rfl, rfl, rfl, rfl, rfl⟩

/-- Words from 43_control_transfer.md R341, R342. -/
theorem test_decode_jcc :
    decode [0x70, 0x01] = .ok (.jo 0x01, []) ∧
    decode [0x71, 0x02] = .ok (.jno 0x02, []) ∧
    decode [0x72, 0xFE] = .ok (.jb 0xFE, []) ∧
    decode [0x73, 0x03] = .ok (.jae 0x03, []) ∧
    decode [0x74, 0x05] = .ok (.je 0x05, []) ∧
    decode [0x75, 0xFD] = .ok (.jne 0xFD, []) ∧
    decode [0x76, 0x02] = .ok (.jbe 0x02, []) ∧
    decode [0x77, 0x04] = .ok (.ja 0x04, []) ∧
    decode [0x78, 0x80] = .ok (.js 0x80, []) ∧
    decode [0x79, 0x7F] = .ok (.jns 0x7F, []) ∧
    decode [0x7A, 0x02] = .ok (.jp 0x02, []) ∧
    decode [0x7B, 0x06] = .ok (.jnp 0x06, []) ∧
    decode [0x7C, 0x02] = .ok (.jl 0x02, []) ∧
    decode [0x7D, 0x08] = .ok (.jge 0x08, []) ∧
    decode [0x7E, 0x09] = .ok (.jle 0x09, []) ∧
    decode [0x7F, 0x02] = .ok (.jg 0x02, []) :=
  ⟨rfl, rfl, rfl, rfl, rfl, rfl, rfl, rfl, rfl, rfl, rfl, rfl, rfl, rfl, rfl, rfl⟩

/-- Words from 43_control_transfer.md R343 to R359; 30_encoding.md R138, R147. -/
theorem test_decode_transfers :
    decode [0xEB, 0x80] = .ok (.jmpShort 0x80, []) ∧
    decode [0xE9, 0xFD, 0xFF] = .ok (.jmpNear 0xFFFD, []) ∧
    decode [0xEA, 0x00, 0x01, 0x00, 0x20] = .ok (.jmpFar 0x0100 0x2000, []) ∧
    decode [0xFF, 0xE3] = .ok (.jmpEv (.reg .bx), []) ∧
    decode [0xFF, 0x2E, 0x00, 0x02] = .ok (.jmpMp (.direct 0x0200), []) ∧
    decode [0xE8, 0x03, 0x00] = .ok (.callNear 0x0003, []) ∧
    decode [0x9A, 0x34, 0x12, 0x00, 0x30] = .ok (.callFar 0x1234 0x3000, []) ∧
    decode [0xFF, 0xD4] = .ok (.callEv (.reg .sp), []) ∧
    decode [0xFF, 0x1E, 0x00, 0x02] = .ok (.callMp (.direct 0x0200), []) ∧
    decode [0xC3] = .ok (.ret, []) ∧
    decode [0xC2, 0x04, 0x00] = .ok (.retIw 0x0004, []) ∧
    decode [0xCB] = .ok (.retf, []) ∧
    decode [0xCA, 0x02, 0x00] = .ok (.retfIw 0x0002, []) ∧
    decode [0xE2, 0xFE] = .ok (.loopJb 0xFE, []) ∧
    decode [0xE1, 0xFE] = .ok (.loopz 0xFE, []) ∧
    decode [0xE0, 0xFE] = .ok (.loopnz 0xFE, []) ∧
    decode [0xE3, 0x05] = .ok (.jcxz 0x05, []) :=
  ⟨rfl, rfl, rfl, rfl, rfl, rfl, rfl, rfl, rfl, rfl, rfl, rfl, rfl, rfl, rfl, rfl, rfl⟩

/-- Words from 44_string.md R394 to R398. -/
theorem test_decode_strings :
    decode [0xA4] = .ok (.movsb, []) ∧
    decode [0xA5] = .ok (.movsw, []) ∧
    decode [0xA6] = .ok (.cmpsb, []) ∧
    decode [0xA7] = .ok (.cmpsw, []) ∧
    decode [0xAA] = .ok (.stosb, []) ∧
    decode [0xAB] = .ok (.stosw, []) ∧
    decode [0xAC] = .ok (.lodsb, []) ∧
    decode [0xAD] = .ok (.lodsw, []) ∧
    decode [0xAE] = .ok (.scasb, []) ∧
    decode [0xAF] = .ok (.scasw, []) :=
  ⟨rfl, rfl, rfl, rfl, rfl, rfl, rfl, rfl, rfl, rfl⟩

/-- Words from 45_shift_rotate.md R423 to R426; 30_encoding.md R144. -/
theorem test_decode_rotates :
    decode [0xD0, 0xC0] = .ok (.rolEb1 (.reg .al), []) ∧
    decode [0xD1, 0xC7] = .ok (.rolEv1 (.reg .di), []) ∧
    decode [0xD2, 0xC3] = .ok (.rolEbCl (.reg .bl), []) ∧
    decode [0xD3, 0x06, 0x34, 0x12] = .ok (.rolEvCl (.mem (.direct 0x1234)), []) ∧
    decode [0xD0, 0xC8] = .ok (.rorEb1 (.reg .al), []) ∧
    decode [0xD1, 0x0F] = .ok (.rorEv1 (.mem (.base .bx)), []) ∧
    decode [0xD2, 0xCC] = .ok (.rorEbCl (.reg .ah), []) ∧
    decode [0xD3, 0xC8] = .ok (.rorEvCl (.reg .ax), []) ∧
    decode [0xD0, 0xD0] = .ok (.rclEb1 (.reg .al), []) ∧
    decode [0xD1, 0xD1] = .ok (.rclEv1 (.reg .cx), []) ∧
    decode [0xD2, 0xD0] = .ok (.rclEbCl (.reg .al), []) ∧
    decode [0xD3, 0xD2] = .ok (.rclEvCl (.reg .dx), []) ∧
    decode [0xD0, 0xD8] = .ok (.rcrEb1 (.reg .al), []) ∧
    decode [0xD1, 0xDB] = .ok (.rcrEv1 (.reg .bx), []) ∧
    decode [0xD2, 0xDF] = .ok (.rcrEbCl (.reg .bh), []) ∧
    decode [0xD3, 0xDE] = .ok (.rcrEvCl (.reg .si), []) :=
  ⟨rfl, rfl, rfl, rfl, rfl, rfl, rfl, rfl, rfl, rfl, rfl, rfl, rfl, rfl, rfl, rfl⟩

/-- Words from 45_shift_rotate.md R427 to R429; 30_encoding.md R144. -/
theorem test_decode_shifts :
    decode [0xD0, 0xE0] = .ok (.shlEb1 (.reg .al), []) ∧
    decode [0xD1, 0x26, 0x00, 0x02] = .ok (.shlEv1 (.mem (.direct 0x0200)), []) ∧
    decode [0xD2, 0xE0] = .ok (.shlEbCl (.reg .al), []) ∧
    decode [0xD3, 0xE5] = .ok (.shlEvCl (.reg .bp), []) ∧
    decode [0xD0, 0xEE] = .ok (.shrEb1 (.reg .dh), []) ∧
    decode [0xD1, 0xE8] = .ok (.shrEv1 (.reg .ax), []) ∧
    decode [0xD2, 0xE9] = .ok (.shrEbCl (.reg .cl), []) ∧
    decode [0xD3, 0xE8] = .ok (.shrEvCl (.reg .ax), []) ∧
    decode [0xD0, 0xF8] = .ok (.sarEb1 (.reg .al), []) ∧
    decode [0xD1, 0xF9] = .ok (.sarEv1 (.reg .cx), []) ∧
    decode [0xD2, 0xF8] = .ok (.sarEbCl (.reg .al), []) ∧
    decode [0xD3, 0x3F] = .ok (.sarEvCl (.mem (.base .bx)), []) :=
  ⟨rfl, rfl, rfl, rfl, rfl, rfl, rfl, rfl, rfl, rfl, rfl, rfl⟩

/-- Words from 46_stack.md R452 to R459; 30_encoding.md R124. -/
theorem test_decode_stack :
    decode [0x54] = .ok (.pushR16 .sp, []) ∧
    decode [0x0E] = .ok (.pushSreg .cs, []) ∧
    decode [0xFF, 0x36, 0x00, 0x02] = .ok (.pushEv (.mem (.direct 0x0200)), []) ∧
    decode [0x5B] = .ok (.popR16 .bx, []) ∧
    decode [0x1F] = .ok (.popSreg .ds, []) ∧
    decode [0x8F, 0x06, 0x00, 0x02] = .ok (.popEv (.mem (.direct 0x0200)), []) ∧
    decode [0x9C] = .ok (.pushf, []) ∧
    decode [0x9D] = .ok (.popf, []) :=
  ⟨rfl, rfl, rfl, rfl, rfl, rfl, rfl, rfl⟩

/-- Words from 47_io.md R481 to R484; 48_interrupt_instr.md R491 to R494. -/
theorem test_decode_ports_and_interrupts :
    decode [0xE4, 0x60] = .ok (.inAlIb 0x60, []) ∧
    decode [0xEC] = .ok (.inAlDx, []) ∧
    decode [0xE6, 0x80] = .ok (.outIbAl 0x80, []) ∧
    decode [0xEE] = .ok (.outDxAl, []) ∧
    decode [0xCC] = .ok (.int3, []) ∧
    decode [0xCD, 0x21] = .ok (.intIb 0x21, []) ∧
    decode [0xCE] = .ok (.into, []) ∧
    decode [0xCF] = .ok (.iret, []) :=
  ⟨rfl, rfl, rfl, rfl, rfl, rfl, rfl, rfl⟩

/-- Words from 49_processor_control.md R500 to R511. -/
theorem test_decode_control :
    decode [0xF8] = .ok (.clc, []) ∧
    decode [0xF9] = .ok (.stc, []) ∧
    decode [0xF5] = .ok (.cmc, []) ∧
    decode [0xFA] = .ok (.cli, []) ∧
    decode [0xFB] = .ok (.sti, []) ∧
    decode [0xFC] = .ok (.cld, []) ∧
    decode [0xFD] = .ok (.std, []) ∧
    decode [0xF4] = .ok (.hlt, []) ∧
    decode [0x9B] = .ok (.wait, []) ∧
    decode [0x90] = .ok (.nop, []) ∧
    decode [0xD8, 0x06, 0x00, 0x02] = .ok (.esc 0 0 (.mem (.direct 0x0200)), []) :=
  ⟨rfl, rfl, rfl, rfl, rfl, rfl, rfl, rfl, rfl, rfl, rfl⟩

/-- Words from 30_encoding.md R139, R149 to R152. -/
theorem test_decode_prefixes_and_invalid :
    decode [0x26] = .ok (.pfxEs, []) ∧
    decode [0x2E] = .ok (.pfxCs, []) ∧
    decode [0x36] = .ok (.pfxSs, []) ∧
    decode [0x3E] = .ok (.pfxDs, []) ∧
    decode [0xF0] = .ok (.pfxLock, []) ∧
    decode [0xF2] = .ok (.pfxRepnz, []) ∧
    decode [0xF3] = .ok (.pfxRepz, []) ∧
    decode [0x0F] = .ok (.invalidOp 0x0F, []) ∧
    decode [0xC6, 0xC8] = .ok (.invalidSub 0xC6 1 (.reg 0), []) ∧
    decode [0x8D, 0xC0] = .ok (.invalidForm 0x8D 0 0, []) :=
  ⟨rfl, rfl, rfl, rfl, rfl, rfl, rfl, rfl, rfl, rfl⟩

/-- Rows that differ in the register number of the opcode byte (30_encoding.md R124), the other coprocessor
opcodes, and a list that ends inside an instruction. -/
theorem test_decode_more :
    decode [0x40] = .ok (.incR16 .ax, []) ∧ decode [0x57] = .ok (.pushR16 .di, []) ∧
    decode [0x97] = .ok (.xchgAxR16 .di, []) ∧ decode [0xB7, 0xFF] = .ok (.movR8Ib .bh 0xFF, []) ∧
    decode [0x06] = .ok (.pushSreg .es, []) ∧ decode [0x17] = .ok (.popSreg .ss, []) ∧
    decode [0xDF, 0xC0] = .ok (.esc 7 0 (.reg .ax), []) ∧ decode [0x60] = .ok (.invalidOp 0x60, []) ∧
    decode [0x82, 0xC0] = .ok (.invalidOp 0x82, [0xC0]) ∧ decode [0xFF, 0xD8] = .ok (.invalidForm 0xFF 3 0, []) ∧
    decode [0xC7, 0x06, 0x00] = .error .truncated :=
  ⟨rfl, rfl, rfl, rfl, rfl, rfl, rfl, rfl, rfl, rfl, rfl⟩

/-- The table's numbering: the opcode byte is bits 15:8 and the ModRM byte bits 7:0 (30_encoding.md R157). -/
theorem test_table_word :
    decodeTableWord 16 0x8007 = some (.addEbIb (.mem (.base .bx)) 0) ∧
    decodeTableWord 16 0xFF38 = some (.invalidSub 0xFF 7 (.mem (.base .bxSi))) ∧
    decodeTableWord 8 0x40 = some (.incR16 .ax) := by decide

/-- The word placed for the fetch is the one the first step after reset runs. -/
theorem test_with_fetch_word :
    (match step (State.reset.withFetchWord 16 0x4000) with
      | .next t => t.r16 .ax == 1 && t.ip == 1
      | _ => false) = true := by decide

/-! ## One step on the spec's vectors -/

/-- V1 (R200): MOV AX,[BX]. -/
theorem test_v1_mov_ax :
    after [0x8B, 0x07] (start |>.setR16 .bx 0x0200 |> poke 0x00200 [0xEF, 0xBE]) (fun t =>
      t.r16 .ax == 0xBEEF && t.ip == 0x0002) = true := by decide

/-- V2 (R200): MOV [BX+SI+4],CL. -/
theorem test_v2_mov_bxsi4 :
    after [0x88, 0x48, 0x04] (start |>.setR16 .bx 0x0200 |>.setR16 .si 0x0010 |>.setR8 .cl 0x5A) (fun t =>
      t.ip == 0x0003 && peek 0x00214 1 t == [0x5A]) = true := by decide

/-- V3 (R201): MOV word [0x200],0x1234. -/
theorem test_v3_mov_word :
    after [0xC7, 0x06, 0x00, 0x02, 0x34, 0x12] start (fun t =>
      t.ip == 0x0006 && peek 0x00200 2 t == [0x34, 0x12]) = true := by decide

/-- V5 (R202): MOV AH,0x12. -/
theorem test_v5_mov_ah :
    after [0xB4, 0x12] (start |>.setR16 .ax 0x00FF) (fun t =>
      t.r16 .ax == 0x12FF && t.ip == 0x0002) = true := by decide

/-- V6 (R202): MOV DI,0xBEEF. -/
theorem test_v6_mov_di :
    after [0xBF, 0xEF, 0xBE] start (fun t =>
      t.r16 .di == 0xBEEF && t.ip == 0x0003) = true := by decide

/-- V7 (R203): MOV DS,AX. -/
theorem test_v7_mov_ds :
    after [0x8E, 0xD8] (start |>.setR16 .ax 0x1234) (fun t =>
      t.sreg .ds == 0x1234 && t.ip == 0x0002) = true := by decide

/-- V11 (R205): MOV AX,[0x0010]. -/
theorem test_v11_mov_ax :
    after [0xA1, 0x10, 0x00] (start |>.setSreg .ds 0x0040 |> poke 0x00410 [0xCD, 0xAB]) (fun t =>
      t.r16 .ax == 0xABCD && t.ip == 0x0003) = true := by decide

/-- V12 (R205): MOV AX,[0xFFFF] (word across 64 KiB). -/
theorem test_v12_mov_ax :
    after [0xA1, 0xFF, 0xFF] (start |>.setSreg .ds 0x0100 |> poke 0x10FFF [0x11] |> poke 0x11000 [0x22]
      |> poke 0x01000 [0x99]) (fun t =>
      t.r16 .ax == 0x2211) = true := by decide

/-- V13 (R205): ES: MOV AL,[0x0000]. -/
theorem test_v13_es_mov :
    after [0x26, 0xA0, 0x00, 0x00] (start |>.setSreg .es 0x0020 |> poke 0x00200 [0x77]) (fun t =>
      t.r8 .al == 0x77 && t.ip == 0x0004) = true := by decide

/-- V14 (R206): MOV [0x0100],AL. -/
theorem test_v14_mov_0x0100 :
    after [0xA2, 0x00, 0x01] (start |>.setR8 .al 0x5A) (fun t =>
      t.ip == 0x0003 && peek 0x00100 1 t == [0x5A]) = true := by decide

/-- V15 (R207): XCHG AL,AH. -/
theorem test_v15_xchg_al :
    after [0x86, 0xC4] (start |>.setR16 .ax 0x1234) (fun t =>
      t.r16 .ax == 0x3412) = true := by decide

/-- V16 (R207): XCHG [0x200],BX. -/
theorem test_v16_xchg_0x200 :
    after [0x87, 0x1E, 0x00, 0x02] (start |>.setR16 .bx 0x1111 |> poke 0x00200 [0x22, 0x22]) (fun t =>
      t.r16 .bx == 0x2222 && peek 0x00200 2 t == [0x11, 0x11]) = true := by decide

/-- V18 (R209): LEA AX,[BX+5]. -/
theorem test_v18_lea_ax :
    after [0x8D, 0x47, 0x05] (start |>.setR16 .bx 0xFFFE) (fun t =>
      t.r16 .ax == 0x0003 && t.ip == 0x0003) = true := by decide

/-- V21 (R212): LES BX,[0x200]. -/
theorem test_v21_les_bx :
    after [0xC4, 0x1E, 0x00, 0x02] (start |> poke 0x00200 [0x78, 0x56, 0x34, 0x12]) (fun t =>
      t.r16 .bx == 0x5678 && t.sreg .es == 0x1234 && t.ip == 0x0004) = true := by decide

/-- V22 (R211): LDS SI,[BX]. -/
theorem test_v22_lds_si :
    after [0xC5, 0x37] (start |>.setR16 .bx 0x0300 |> poke 0x00300 [0x00, 0x01, 0x00, 0x20]) (fun t =>
      t.r16 .si == 0x0100 && t.sreg .ds == 0x2000) = true := by decide

/-- V23 (R213): XLAT. -/
theorem test_v23_xlat :
    after [0xD7] (start |>.setR16 .bx 0x0200 |>.setR8 .al 0x03 |> poke 0x00203 [0x7E]) (fun t =>
      t.r8 .al == 0x7E) = true := by decide

/-- V24 (R214): LAHF. -/
theorem test_v24_lahf :
    after [0x9F] (start |> flagged .cf true |> flagged .zf true) (fun t =>
      t.r16 .ax == 0x4300) = true := by decide

/-- V25 (R215): SAHF. -/
theorem test_v25_sahf :
    after [0x9E] (start |>.setR16 .ax 0xFF00) (fun t =>
      t.flags.sf && t.flags.zf && t.flags.af && t.flags.pf && t.flags.cf && !t.flags.ovf) = true := by decide

/-- V26 (R216): CBW. -/
theorem test_v26_cbw :
    after [0x98] (start |>.setR16 .ax 0x12F0) (fun t =>
      t.r16 .ax == 0xFFF0) = true := by decide

/-- V28 (R217): CWD. -/
theorem test_v28_cwd :
    after [0x99] (start |>.setR16 .ax 0x8000) (fun t =>
      t.r16 .dx == 0xFFFF && t.r16 .ax == 0x8000) = true := by decide

/-- V30 (R254): ADD AL,100 (source test). -/
theorem test_v30_add_al :
    after [0x04, 0x64] (start |>.setR8 .al 0x64) (fun t =>
      t.r8 .al == 0xC8 && t.flags.ovf && t.flags.sf && !t.flags.cf && !t.flags.zf && !t.flags.pf &&
      !t.flags.af) = true := by decide

/-- V31 (R254): ADD AX,1. -/
theorem test_v31_add_ax :
    after [0x05, 0x01, 0x00] (start |>.setR16 .ax 0xFFFF) (fun t =>
      t.r16 .ax == 0x0000 && t.flags.cf && t.flags.zf && t.flags.pf && t.flags.af && !t.flags.ovf &&
      !t.flags.sf) = true := by decide

/-- V32 (R254): ADD [BX],AL. -/
theorem test_v32_add_bx :
    after [0x00, 0x07] (start |>.setR16 .bx 0x0200 |>.setR8 .al 0x20 |> poke 0x00200 [0xF0]) (fun t =>
      t.flags.cf && !t.flags.zf && !t.flags.ovf && peek 0x00200 1 t == [0x10]) = true := by decide

/-- V33 (R254): ADD AX,-1 (83 /0). -/
theorem test_v33_add_ax :
    after [0x83, 0xC0, 0xFF] (start |>.setR16 .ax 0x0001) (fun t =>
      t.r16 .ax == 0x0000 && t.flags.cf && t.flags.zf && t.flags.af) = true := by decide

/-- V35 (R255): ADC AL,0x7F. -/
theorem test_v35_adc_al :
    after [0x14, 0x7F] (start |>.setR8 .al 0x00 |> flagged .cf true) (fun t =>
      t.r8 .al == 0x80 && t.flags.ovf && t.flags.sf && !t.flags.cf && t.flags.af) = true := by decide

/-- V36 (R256): SUB AL,1. -/
theorem test_v36_sub_al :
    after [0x2C, 0x01] (start |>.setR8 .al 0x80) (fun t =>
      t.r8 .al == 0x7F && t.flags.ovf && !t.flags.cf && !t.flags.sf && t.flags.af) = true := by decide

/-- V38 (R257): SBB AL,0. -/
theorem test_v38_sbb_al :
    after [0x1C, 0x00] (start |>.setR8 .al 0x00 |> flagged .cf true) (fun t =>
      t.r8 .al == 0xFF && t.flags.cf && t.flags.sf && t.flags.af) = true := by decide

/-- V39 (R258): CMP AL,7 (source test). -/
theorem test_v39_cmp_al :
    after [0x3C, 0x07] (start |>.setR8 .al 0x06) (fun t =>
      t.r8 .al == 0x06 && !t.flags.zf && t.flags.sf && t.flags.cf && !t.flags.ovf && t.flags.pf &&
      t.flags.af) = true := by decide

/-- V40 (R258): CMP BX,0x8000. -/
theorem test_v40_cmp_bx :
    after [0x81, 0xFB, 0x00, 0x80] (start |>.setR16 .bx 0x0000) (fun t =>
      t.flags.cf && t.flags.ovf && t.flags.sf && !t.flags.zf) = true := by decide

/-- V41 (R259): AND AL,BL. -/
theorem test_v41_and_al :
    after [0x22, 0xC3] (start |>.setR8 .al 0xF0 |>.setR8 .bl 0x3C |> flagged .cf true |> flagged .ovf true) (fun t =>
      t.r8 .al == 0x30 && !t.flags.cf && !t.flags.ovf && t.flags.pf && !t.flags.zf) = true := by decide

/-- V42 (R260): OR CL,0x80. -/
theorem test_v42_or_cl :
    after [0x80, 0xC9, 0x80] (start |>.setR8 .cl 0x01) (fun t =>
      t.r8 .cl == 0x81 && t.flags.sf && t.flags.pf && !t.flags.cf && !t.flags.ovf) = true := by decide

/-- V43 (R261): XOR AX,AX. -/
theorem test_v43_xor_ax :
    after [0x31, 0xC0] (start |>.setR16 .ax 0x5555 |> flagged .cf true |> flagged .af true) (fun t =>
      t.r16 .ax == 0x0000 && t.flags.zf && t.flags.pf && !t.flags.cf && !t.flags.ovf &&
      t.flags.af) = true := by decide

/-- V44 (R262): TEST AL,AL. -/
theorem test_v44_test_al :
    after [0x84, 0xC0] (start |>.setR8 .al 0x80) (fun t =>
      t.r8 .al == 0x80 && t.flags.sf && !t.flags.zf && !t.flags.pf) = true := by decide

/-- V46 (R263): TEST BL,0x0F. -/
theorem test_v46_test_bl :
    after [0xF6, 0xC3, 0x0F] (start |>.setR8 .bl 0xF0) (fun t =>
      t.flags.zf && t.r8 .bl == 0xF0 && t.ip == 0x0003) = true := by decide

/-- V47 (R264): NOT word [0x0300] (source form F7 16). -/
theorem test_v47_not_word :
    after [0xF7, 0x16, 0x00, 0x03] (start |> poke 0x00300 [0xFF, 0x00]) (fun t =>
      t.flags.sf && !t.flags.zf && t.flags.pf && !t.flags.cf && !t.flags.ovf && t.ip == 0x0004 &&
      peek 0x00300 2 t == [0x00, 0xFF]) = true := by decide

/-- V49 (R265): NEG AL. -/
theorem test_v49_neg_al :
    after [0xF6, 0xD8] (start |>.setR8 .al 0x01) (fun t =>
      t.r8 .al == 0xFF && t.flags.cf && t.flags.sf && t.flags.af && t.flags.pf && !t.flags.ovf) = true := by decide

/-- V51 (R265): NEG AL (0x80). -/
theorem test_v51_neg_al :
    after [0xF6, 0xD8] (start |>.setR8 .al 0x80) (fun t =>
      t.r8 .al == 0x80 && t.flags.cf && t.flags.ovf && t.flags.sf) = true := by decide

/-- V53 (R266): INC byte [0x200]. -/
theorem test_v53_inc_byte :
    after [0xFE, 0x06, 0x00, 0x02] (start |> flagged .cf true |> poke 0x00200 [0x41]) (fun t =>
      t.flags.cf && t.flags.pf && !t.flags.zf && peek 0x00200 1 t == [0x42]) = true := by decide

/-- V54 (R267): INC AX. -/
theorem test_v54_inc_ax :
    after [0x40] (start |>.setR16 .ax 0x7FFF |> flagged .cf true) (fun t =>
      t.r16 .ax == 0x8000 && t.flags.ovf && t.flags.sf && t.flags.cf && t.flags.af) = true := by decide

/-- V55 (R267): INC AX (wrap, source test). -/
theorem test_v55_inc_ax :
    after [0x40] (start |>.setR16 .ax 0xFFFF) (fun t =>
      t.r16 .ax == 0x0000 && t.flags.zf && !t.flags.cf && !t.flags.ovf) = true := by decide

/-- V56 (R268): DEC AL. -/
theorem test_v56_dec_al :
    after [0xFE, 0xC8] (start |>.setR8 .al 0x00) (fun t =>
      t.r8 .al == 0xFF && t.flags.af && t.flags.sf && !t.flags.cf && !t.flags.ovf) = true := by decide

/-- V58 (R269): DEC CX. -/
theorem test_v58_dec_cx :
    after [0x49] (start |>.setR16 .cx 0x0001) (fun t =>
      t.r16 .cx == 0x0000 && t.flags.zf) = true := by decide

/-- V60 (R301): MUL BL. -/
theorem test_v60_mul_bl :
    after [0xF6, 0xE3] (start |>.setR8 .al 0x10 |>.setR8 .bl 0x10) (fun t =>
      t.r16 .ax == 0x0100 && t.flags.cf && t.flags.ovf) = true := by decide

/-- V62 (R301): MUL BX. -/
theorem test_v62_mul_bx :
    after [0xF7, 0xE3] (start |>.setR16 .ax 0xFFFF |>.setR16 .bx 0xFFFF) (fun t =>
      t.r16 .ax == 0x0001 && t.r16 .dx == 0xFFFE && t.flags.cf && t.flags.ovf) = true := by decide

/-- V63 (R302): IMUL BL. -/
theorem test_v63_imul_bl :
    after [0xF6, 0xEB] (start |>.setR8 .al 0xFE |>.setR8 .bl 0x03) (fun t =>
      t.r16 .ax == 0xFFFA && !t.flags.cf && !t.flags.ovf) = true := by decide

/-- V65 (R302): IMUL BX (-32768*-1). -/
theorem test_v65_imul_bx :
    after [0xF7, 0xEB] (start |>.setR16 .ax 0x8000 |>.setR16 .bx 0xFFFF) (fun t =>
      t.r16 .ax == 0x8000 && t.r16 .dx == 0x0000 && t.flags.cf && t.flags.ovf) = true := by decide

/-- V66 (R303): DIV BL (source test). -/
theorem test_v66_div_bl :
    after [0xF6, 0xF3] (start |>.setR16 .ax 0x03E8 |>.setR8 .bl 0x07) (fun t =>
      t.r16 .ax == 0x068E && t.ip == 0x0002) = true := by decide

/-- V67 (R303): DIV BL by 0 (source test). -/
theorem test_v67_div_bl :
    after [0xF6, 0xF3] (start |>.setR16 .ax 0x03E8 |>.setR8 .bl 0x00 |> flagged .ief true
      |> poke 0x00000 [0x00, 0x05, 0x00, 0x30]) (fun t =>
      t.r16 .ax == 0x03E8 && t.sreg .cs == 0x3000 && t.ip == 0x0500 && t.r16 .sp == 0x0FFA && !t.flags.ief &&
      peek 0x00FFA 2 t == [0x02, 0x00] && peek 0x00FFC 2 t == [0x00, 0x10] &&
      peek 0x00FFE 2 t == [0x02, 0xF2]) = true := by decide

/-- V69 (R303): DIV BX. -/
theorem test_v69_div_bx :
    after [0xF7, 0xF3] (start |>.setR16 .dx 0x0001 |>.setR16 .ax 0x0000 |>.setR16 .bx 0x0002) (fun t =>
      t.r16 .ax == 0x8000 && t.r16 .dx == 0x0000) = true := by decide

/-- V70 (R304): IDIV BL (-100/7). -/
theorem test_v70_idiv_bl :
    after [0xF6, 0xFB] (start |>.setR16 .ax 0xFF9C |>.setR8 .bl 0x07) (fun t =>
      t.r16 .ax == 0xFEF2) = true := by decide

/-- V71 (R304): IDIV BL (7 by -2). -/
theorem test_v71_idiv_bl :
    after [0xF6, 0xFB] (start |>.setR16 .ax 0x0007 |>.setR8 .bl 0xFE) (fun t =>
      t.r16 .ax == 0x01FD) = true := by decide

/-- V72 (R304): IDIV BL (-128/1, P_IDIV_ACCEPT_MIN = true). -/
theorem test_v72_idiv_bl :
    after [0xF6, 0xFB] (start |>.setR16 .ax 0xFF80 |>.setR8 .bl 0x01) (fun t =>
      t.r16 .ax == 0x0080) = true := by decide

/-- V73 (R304): IDIV BL (128/1). -/
theorem test_v73_idiv_bl :
    after [0xF6, 0xFB] (start |>.setR16 .ax 0x0080 |>.setR8 .bl 0x01
      |> poke 0x00000 [0x00, 0x05, 0x00, 0x30]) (fun t =>
      t.r16 .ax == 0x0080 && t.sreg .cs == 0x3000 && t.ip == 0x0500) = true := by decide

/-- V76 (R306): DAA. -/
theorem test_v76_daa :
    after [0x27] (start |>.setR8 .al 0x9A) (fun t =>
      t.r8 .al == 0x00 && t.flags.cf && t.flags.af && t.flags.zf) = true := by decide

/-- V78 (R307): DAS. -/
theorem test_v78_das :
    after [0x2F] (start |>.setR8 .al 0x03 |> flagged .af true) (fun t =>
      t.r8 .al == 0xFD && t.flags.af && t.flags.cf) = true := by decide

/-- V80 (R308): AAA (8086 form). -/
theorem test_v80_aaa :
    after [0x37] (start |>.setR16 .ax 0x00FA) (fun t =>
      t.r16 .ax == 0x0100 && t.flags.cf && t.flags.af) = true := by decide

/-- V82 (R309): AAS. -/
theorem test_v82_aas :
    after [0x3F] (start |>.setR16 .ax 0x0000 |> flagged .af true) (fun t =>
      t.r16 .ax == 0xFF0A && t.flags.cf) = true := by decide

/-- V83 (R310): AAD. -/
theorem test_v83_aad :
    after [0xD5, 0x0A] (start |>.setR16 .ax 0x0705) (fun t =>
      t.r16 .ax == 0x004B && t.flags.pf && !t.flags.zf && !t.flags.sf) = true := by decide

/-- V85 (R311): AAM. -/
theorem test_v85_aam :
    after [0xD4, 0x0A] (start |>.setR8 .al 0x3F) (fun t =>
      t.r16 .ax == 0x0603 && t.flags.pf) = true := by decide

/-- V87 (R311): AAM 0. -/
theorem test_v87_aam_0 :
    after [0xD4, 0x00] (start |>.setR16 .ax 0x1234 |> poke 0x00000 [0x00, 0x05, 0x00, 0x30]) (fun t =>
      t.r16 .ax == 0x1234 && t.sreg .cs == 0x3000 && t.ip == 0x0500 &&
      peek 0x00FFA 2 t == [0x02, 0x00]) = true := by decide

/-- V88 (R342): JZ +5 (taken). -/
theorem test_v88_jz_5 :
    after [0x74, 0x05] (start |> flagged .zf true) (fun t =>
      t.ip == 0x0007) = true := by decide

/-- V89 (R342): JZ +5 (not taken). -/
theorem test_v89_jz_5 :
    after [0x74, 0x05] (start |> flagged .zf false) (fun t =>
      t.ip == 0x0002) = true := by decide

/-- V90 (R342): JL +2 (SF != OF). -/
theorem test_v90_jl_2 :
    after [0x7C, 0x02] (start |> flagged .sf true) (fun t =>
      t.ip == 0x0004) = true := by decide

/-- V91 (R342): JG +2 (ZF = 0, SF = OF = 1). -/
theorem test_v91_jg_2 :
    after [0x7F, 0x02] (start |> flagged .sf true |> flagged .ovf true) (fun t =>
      t.ip == 0x0004) = true := by decide

/-- V95 (R343): JMP short -128. -/
theorem test_v95_jmp_short :
    after [0xEB, 0x80] start (fun t =>
      t.ip == 0xFF82) = true := by decide

/-- V97 (R345): JMP far 2000:0100. -/
theorem test_v97_jmp_far :
    after [0xEA, 0x00, 0x01, 0x00, 0x20] start (fun t =>
      t.sreg .cs == 0x2000 && t.ip == 0x0100) = true := by decide

/-- V98 (R346): JMP BX. -/
theorem test_v98_jmp_bx :
    after [0xFF, 0xE3] (start |>.setR16 .bx 0x1234) (fun t =>
      t.ip == 0x1234) = true := by decide

/-- V99 (R347): JMP far [0x200]. -/
theorem test_v99_jmp_far :
    after [0xFF, 0x2E, 0x00, 0x02] (start |> poke 0x00200 [0x00, 0x01, 0x00, 0x40]) (fun t =>
      t.sreg .cs == 0x4000 && t.ip == 0x0100 && t.r16 .sp == 0x1000) = true := by decide

/-- V101 (R348): CALL near +3. -/
theorem test_v101_call_near :
    after [0xE8, 0x03, 0x00] start (fun t =>
      t.ip == 0x0006 && t.r16 .sp == 0x0FFE && peek 0x00FFE 2 t == [0x03, 0x00]) = true := by decide

/-- V102 (R349): CALL far 3000:1234. -/
theorem test_v102_call_far :
    after [0x9A, 0x34, 0x12, 0x00, 0x30] start (fun t =>
      t.sreg .cs == 0x3000 && t.ip == 0x1234 && t.r16 .sp == 0x0FFC && peek 0x00FFC 2 t == [0x05, 0x00] &&
      peek 0x00FFE 2 t == [0x00, 0x10]) = true := by decide

/-- V103 (R350): CALL BX. -/
theorem test_v103_call_bx :
    after [0xFF, 0xD3] (start |>.setR16 .bx 0x0400) (fun t =>
      t.ip == 0x0400 && t.r16 .sp == 0x0FFE && peek 0x00FFE 2 t == [0x02, 0x00]) = true := by decide

/-- V104 (R350): CALL SP (target read before the push). -/
theorem test_v104_call_sp :
    after [0xFF, 0xD4] (start |>.setR16 .sp 0x1000) (fun t =>
      t.ip == 0x1000 && t.r16 .sp == 0x0FFE) = true := by decide

/-- V105 (R351): CALL far [0x200]. -/
theorem test_v105_call_far :
    after [0xFF, 0x1E, 0x00, 0x02] (start |> poke 0x00200 [0x00, 0x01, 0x00, 0x40]) (fun t =>
      t.sreg .cs == 0x4000 && t.ip == 0x0100 && t.r16 .sp == 0x0FFC && peek 0x00FFC 2 t == [0x04, 0x00] &&
      peek 0x00FFE 2 t == [0x00, 0x10]) = true := by decide

/-- V107 (R352): RET. -/
theorem test_v107_ret :
    after [0xC3] (start |>.setR16 .sp 0x0FFE |> poke 0x00FFE [0x34, 0x12]) (fun t =>
      t.ip == 0x1234 && t.r16 .sp == 0x1000) = true := by decide

/-- V108 (R353): RET 4. -/
theorem test_v108_ret_4 :
    after [0xC2, 0x04, 0x00] (start |>.setR16 .sp 0x0FFE |> poke 0x00FFE [0x34, 0x12]) (fun t =>
      t.ip == 0x1234 && t.r16 .sp == 0x1004) = true := by decide

/-- V109 (R354): RETF. -/
theorem test_v109_retf :
    after [0xCB] (start |>.setR16 .sp 0x0FFC |> poke 0x00FFC [0x34, 0x12, 0x00, 0x20]) (fun t =>
      t.ip == 0x1234 && t.sreg .cs == 0x2000 && t.r16 .sp == 0x1000) = true := by decide

/-- V110 (R355): RETF 2. -/
theorem test_v110_retf_2 :
    after [0xCA, 0x02, 0x00] (start |>.setR16 .sp 0x0FFC |> poke 0x00FFC [0x34, 0x12, 0x00, 0x20]) (fun t =>
      t.ip == 0x1234 && t.sreg .cs == 0x2000 && t.r16 .sp == 0x1002) = true := by decide

/-- V114 (R357): LOOPZ, ZF = 0. -/
theorem test_v114_loopz_zf :
    after [0xE1, 0xFE] (start |>.setR16 .cx 0x0005) (fun t =>
      t.r16 .cx == 0x0004 && t.ip == 0x0002) = true := by decide

/-- V115 (R357): LOOPZ, ZF = 1. -/
theorem test_v115_loopz_zf :
    after [0xE1, 0xFE] (start |>.setR16 .cx 0x0005 |> flagged .zf true) (fun t =>
      t.r16 .cx == 0x0004 && t.ip == 0x0000) = true := by decide

/-- V117 (R358): LOOPNZ, CX = 1. -/
theorem test_v117_loopnz_cx :
    after [0xE0, 0xFE] (start |>.setR16 .cx 0x0001) (fun t =>
      t.r16 .cx == 0x0000 && t.ip == 0x0002) = true := by decide

/-- V118 (R359): JCXZ +5, CX = 0. -/
theorem test_v118_jcxz_5 :
    after [0xE3, 0x05] (start |>.setR16 .cx 0x0000) (fun t =>
      t.r16 .cx == 0x0000 && t.ip == 0x0007) = true := by decide

/-- V120 (R342): REP JMP (fatal after the jump). -/
theorem test_v120_rep_jmp :
    after [0xF3, 0xEB, 0x00] start (fun t =>
      faulted .unsupportedPrefixCombination 0xEB 0x1000 0x0001 t && t.ip == 0x0003) = true := by decide

/-- V121 (R396): REP STOSB, CX = 3, DF = 0 (source test). -/
theorem test_v121_rep_stosb :
    after [0xF3, 0xAA] (start |>.setR16 .cx 0x0003 |>.setR8 .al 0xAA |>.setR16 .di 0x0200
      |> poke 0x00203 [0x00]) (fun t =>
      t.r16 .cx == 0x0000 && t.r16 .di == 0x0203 && t.ip == 0x0002 && peek 0x00200 3 t == [0xAA, 0xAA, 0xAA] &&
      peek 0x00203 1 t == [0x00]) = true := by decide

/-- V122 (R396): REP STOSB, CX = 3, DF = 1 (source test). -/
theorem test_v122_rep_stosb :
    after [0xF3, 0xAA] (start |>.setR16 .cx 0x0003 |>.setR8 .al 0xAA |>.setR16 .di 0x0200 |> flagged .df true
      |> poke 0x001FD [0x00]) (fun t =>
      t.r16 .cx == 0x0000 && t.r16 .di == 0x01FD && peek 0x001FD 4 t == [0x00, 0xAA, 0xAA, 0xAA]) = true := by decide

/-- V124 (R396): DS: STOSB (override ignored). -/
theorem test_v124_ds_stosb :
    after [0x3E, 0xAA] (start |>.setR8 .al 0x11 |>.setR16 .di 0x0010 |>.setSreg .es 0x0020
      |>.setSreg .ds 0x0030 |> poke 0x00310 [0x00]) (fun t =>
      t.r16 .di == 0x0011 && peek 0x00210 1 t == [0x11] && peek 0x00310 1 t == [0x00]) = true := by decide

/-- V125 (R396): STOSW. -/
theorem test_v125_stosw :
    after [0xAB] (start |>.setR16 .ax 0x1234 |>.setR16 .di 0x0200) (fun t =>
      t.r16 .di == 0x0202 && peek 0x00200 2 t == [0x34, 0x12]) = true := by decide

/-- V126 (R394): REP MOVSB. -/
theorem test_v126_rep_movsb :
    after [0xF3, 0xA4] (start |>.setR16 .cx 0x0003 |>.setR16 .si 0x0120 |>.setR16 .di 0x0130
      |> poke 0x00120 [0x11, 0x22, 0x33]) (fun t =>
      t.r16 .cx == 0x0000 && t.r16 .si == 0x0123 && t.r16 .di == 0x0133 &&
      peek 0x00130 3 t == [0x11, 0x22, 0x33]) = true := by decide

/-- V127 (R394): REP MOVSB overlapping forward. -/
theorem test_v127_rep_movsb :
    after [0xF3, 0xA4] (start |>.setR16 .cx 0x0003 |>.setR16 .si 0x0200 |>.setR16 .di 0x0201
      |> poke 0x00200 [0x55]) (fun t =>
      t.r16 .cx == 0x0000 && peek 0x00200 4 t == [0x55, 0x55, 0x55, 0x55]) = true := by decide

/-- V128 (R394): MOVSW, SI wraps. -/
theorem test_v128_movsw_si :
    after [0xA5] (start |>.setR16 .si 0xFFFF |>.setR16 .di 0x0200 |>.setSreg .ds 0x0100
      |> poke 0x10FFF [0x34] |> poke 0x11000 [0x12]) (fun t =>
      t.r16 .si == 0x0001 && t.r16 .di == 0x0202 && peek 0x00200 2 t == [0x34, 0x12]) = true := by decide

/-- V130 (R395): REPZ CMPSB. -/
theorem test_v130_repz_cmpsb :
    after [0xF3, 0xA6] (start |>.setR16 .cx 0x0004 |>.setR16 .si 0x0200 |>.setR16 .di 0x0300
      |> poke 0x00200 [0x41, 0x42, 0x43, 0x44] |> poke 0x00300 [0x41, 0x42, 0x58, 0x44]) (fun t =>
      t.r16 .cx == 0x0001 && t.r16 .si == 0x0203 && t.r16 .di == 0x0303 && !t.flags.zf &&
      t.flags.cf) = true := by decide

/-- V131 (R395): CMPSW equal. -/
theorem test_v131_cmpsw_equal :
    after [0xA7] (start |>.setR16 .si 0x0200 |>.setR16 .di 0x0300 |> poke 0x00200 [0x34, 0x12]
      |> poke 0x00300 [0x34, 0x12]) (fun t =>
      t.flags.zf && !t.flags.cf && t.r16 .si == 0x0202 && t.r16 .di == 0x0302) = true := by decide

/-- V132 (R397): LODSB. -/
theorem test_v132_lodsb :
    after [0xAC] (start |>.setR16 .si 0x0200 |> poke 0x00200 [0x5A]) (fun t =>
      t.r8 .al == 0x5A && t.r16 .si == 0x0201) = true := by decide

/-- V133 (R397): ES: LODSB (override honoured). -/
theorem test_v133_es_lodsb :
    after [0x26, 0xAC] (start |>.setR16 .si 0x0000 |>.setSreg .es 0x0020 |> poke 0x00200 [0x66]) (fun t =>
      t.r8 .al == 0x66 && t.r16 .si == 0x0001 && t.ip == 0x0002) = true := by decide

/-- V134 (R397): LODSW, DF = 1. -/
theorem test_v134_lodsw_df :
    after [0xAD] (start |>.setR16 .si 0x0200 |> flagged .df true |> poke 0x00200 [0xCD, 0xAB]) (fun t =>
      t.r16 .ax == 0xABCD && t.r16 .si == 0x01FE) = true := by decide

/-- V135 (R398): REPNZ SCASB. -/
theorem test_v135_repnz_scasb :
    after [0xF2, 0xAE] (start |>.setR8 .al 0x00 |>.setR16 .cx 0x0010 |>.setR16 .di 0x0200
      |> poke 0x00200 [0x48, 0x49, 0x00, 0x4A]) (fun t =>
      t.r16 .cx == 0x000D && t.r16 .di == 0x0203 && t.flags.zf) = true := by decide

/-- V137 (R398): REPZ SCASB, CX = 0 (no flag written). -/
theorem test_v137_repz_scasb :
    after [0xF3, 0xAE] (start |>.setR8 .al 0x01 |>.setR16 .cx 0x0000 |>.setR16 .di 0x0200 |> flagged .zf true
      |> flagged .cf true) (fun t =>
      t.flags.zf && t.flags.cf && t.r16 .di == 0x0200) = true := by decide

/-- V138 (R423): ROL AL,1. -/
theorem test_v138_rol_al :
    after [0xD0, 0xC0] (start |>.setR8 .al 0x81) (fun t =>
      t.r8 .al == 0x03 && t.flags.cf && t.flags.ovf) = true := by decide

/-- V140 (R424): ROR AL,1. -/
theorem test_v140_ror_al :
    after [0xD0, 0xC8] (start |>.setR8 .al 0x01) (fun t =>
      t.r8 .al == 0x80 && t.flags.cf && t.flags.ovf) = true := by decide

/-- V142 (R425): RCL AL,1. -/
theorem test_v142_rcl_al :
    after [0xD0, 0xD0] (start |>.setR8 .al 0x80) (fun t =>
      t.r8 .al == 0x00 && t.flags.cf && t.flags.ovf && !t.flags.zf) = true := by decide

/-- V144 (R426): RCR AL,1. -/
theorem test_v144_rcr_al :
    after [0xD0, 0xD8] (start |>.setR8 .al 0x01 |> flagged .cf true) (fun t =>
      t.r8 .al == 0x80 && t.flags.cf && t.flags.ovf) = true := by decide

/-- V145 (R427): SHL AL,1. -/
theorem test_v145_shl_al :
    after [0xD0, 0xE0] (start |>.setR8 .al 0x40) (fun t =>
      t.r8 .al == 0x80 && !t.flags.cf && t.flags.ovf && t.flags.sf && !t.flags.zf && !t.flags.pf) = true := by decide

/-- V146 (R427): SHL AL,CL (CL = 0): nothing changes. -/
theorem test_v146_shl_al :
    after [0xD2, 0xE0] (start |>.setR8 .al 0x40 |>.setR8 .cl 0x00 |> flagged .cf true |> flagged .zf true) (fun t =>
      t.r8 .al == 0x40 && t.flags.cf && t.flags.zf && t.ip == 0x0002) = true := by decide

/-- V147 (R427): SHL AL,CL (CL = 9). -/
theorem test_v147_shl_al :
    after [0xD2, 0xE0] (start |>.setR8 .al 0xFF |>.setR8 .cl 0x09) (fun t =>
      t.r8 .al == 0x00 && !t.flags.cf && t.flags.zf && t.flags.pf) = true := by decide

/-- V150 (R428): SHR AX,1. -/
theorem test_v150_shr_ax :
    after [0xD1, 0xE8] (start |>.setR16 .ax 0x8001) (fun t =>
      t.r16 .ax == 0x4000 && t.flags.cf && t.flags.ovf && !t.flags.zf && !t.flags.sf &&
      t.flags.pf) = true := by decide

/-- V153 (R429): SAR AL,CL (CL = 20). -/
theorem test_v153_sar_al :
    after [0xD2, 0xF8] (start |>.setR8 .al 0x80 |>.setR8 .cl 0x14) (fun t =>
      t.r8 .al == 0xFF && t.flags.cf && t.flags.sf) = true := by decide

/-- V156 (R452): PUSH SP (already-decremented value). -/
theorem test_v156_push_sp :
    after [0x54] start (fun t =>
      t.r16 .sp == 0x0FFE && peek 0x00FFE 2 t == [0xFE, 0x0F]) = true := by decide

/-- V157 (R452): PUSH AX with SP = 0. -/
theorem test_v157_push_ax :
    after [0x50] (start |>.setR16 .ax 0xBEEF |>.setR16 .sp 0x0000) (fun t =>
      t.r16 .sp == 0xFFFE && peek 0x0FFFE 2 t == [0xEF, 0xBE]) = true := by decide

/-- V160 (R453): POP SP. -/
theorem test_v160_pop_sp :
    after [0x5C] (start |>.setR16 .sp 0x0FFE |> poke 0x00FFE [0x00, 0x20]) (fun t =>
      t.r16 .sp == 0x2000) = true := by decide

/-- V162 (R454): PUSH SP via FF /6. -/
theorem test_v162_push_sp :
    after [0xFF, 0xF4] start (fun t =>
      t.r16 .sp == 0x0FFE && peek 0x00FFE 2 t == [0xFE, 0x0F]) = true := by decide

/-- V163 (R455): PUSH CS. -/
theorem test_v163_push_cs :
    after [0x0E] start (fun t =>
      t.r16 .sp == 0x0FFE && peek 0x00FFE 2 t == [0x00, 0x10]) = true := by decide

/-- V164 (R456): POP DS. -/
theorem test_v164_pop_ds :
    after [0x1F] (start |>.setR16 .sp 0x0FFE |> poke 0x00FFE [0x40, 0x00]) (fun t =>
      t.sreg .ds == 0x0040 && t.r16 .sp == 0x1000) = true := by decide

/-- V166 (R457): POP word [0x200]. -/
theorem test_v166_pop_word :
    after [0x8F, 0x06, 0x00, 0x02] (start |>.setR16 .sp 0x0FFE |> poke 0x00FFE [0x34, 0x12]) (fun t =>
      t.r16 .sp == 0x1000 && peek 0x00200 2 t == [0x34, 0x12]) = true := by decide

/-- V168 (R458): PUSHF. -/
theorem test_v168_pushf :
    after [0x9C] (start |> flagged .ief true) (fun t =>
      t.r16 .sp == 0x0FFE && peek 0x00FFE 2 t == [0x02, 0xF2]) = true := by decide

/-- V170 (R459): POPF 0x0000. -/
theorem test_v170_popf_0x0000 :
    after [0x9D] (start |>.setR16 .sp 0x0FFE |> flagged .cf true |> flagged .ief true
      |> poke 0x00FFE [0x00, 0x00]) (fun t =>
      !t.flags.cf && !t.flags.ief) = true := by decide

/-- V171 (R481): IN AL,0x60. -/
theorem test_v171_in_al :
    after [0xE4, 0x60] (start |> answer 0x1C) (fun t =>
      t.r8 .al == 0x1C && t.ip == 0x0002) = true := by decide

/-- V172 (R482): IN AL,DX. -/
theorem test_v172_in_al :
    after [0xEC] (start |>.setR16 .dx 0x03DA |> answer 0x09) (fun t =>
      t.r8 .al == 0x09) = true := by decide

/-- V173 (R483): OUT 0x80,AL. -/
theorem test_v173_out_0x80 :
    after [0xE6, 0x80] (start |>.setR8 .al 0x55) (fun t =>
      t.ip == 0x0002 && t.bus.calls.head? == some (.ioWrite 0x0080 0x55)) = true := by decide

/-- V174 (R484): OUT DX,AL. -/
theorem test_v174_out_dx :
    after [0xEE] (start |>.setR16 .dx 0x0020 |>.setR8 .al 0x20) (fun t =>
      t.ip == 0x0001 && t.bus.calls.head? == some (.ioWrite 0x0020 0x20)) = true := by decide

/-- V177 (R492): INT 0x21. -/
theorem test_v177_int_0x21 :
    after [0xCD, 0x21] (start |> flagged .ief true |> poke 0x00084 [0x00, 0x01, 0x00, 0x50]) (fun t =>
      t.sreg .cs == 0x5000 && t.ip == 0x0100 && t.r16 .sp == 0x0FFA && !t.flags.ief && !t.flags.tf &&
      peek 0x00FFA 2 t == [0x02, 0x00] && peek 0x00FFC 2 t == [0x00, 0x10] &&
      peek 0x00FFE 2 t == [0x02, 0xF2]) = true := by decide

/-- V179 (R491): INT3. -/
theorem test_v179_int3 :
    after [0xCC] (start |> flagged .tf true |> poke 0x0000C [0x00, 0x02, 0x00, 0x60]) (fun t =>
      t.sreg .cs == 0x6000 && t.ip == 0x0200 && !t.flags.tf && peek 0x00FFA 2 t == [0x01, 0x00] &&
      peek 0x00FFE 2 t == [0x02, 0xF1]) = true := by decide

/-- V180 (R493): INTO, OF = 0. -/
theorem test_v180_into_of :
    after [0xCE] (start |> poke 0x00010 [0x00, 0x03, 0x00, 0x70]) (fun t =>
      t.ip == 0x0001 && t.sreg .cs == 0x1000 && t.r16 .sp == 0x1000) = true := by decide

/-- V181 (R493): INTO, OF = 1. -/
theorem test_v181_into_of :
    after [0xCE] (start |> flagged .ovf true |> poke 0x00010 [0x00, 0x03, 0x00, 0x70]) (fun t =>
      t.ip == 0x0300 && t.sreg .cs == 0x7000 && t.r16 .sp == 0x0FFA && peek 0x00FFA 2 t == [0x01, 0x00] &&
      peek 0x00FFE 2 t == [0x02, 0xF8]) = true := by decide

/-- V182 (R494): IRET. -/
theorem test_v182_iret :
    after [0xCF] (start |>.setR16 .sp 0x0FFA |> poke 0x00FFA [0x34, 0x00, 0x00, 0x20, 0xD5, 0x0F]) (fun t =>
      t.ip == 0x0034 && t.sreg .cs == 0x2000 && t.r16 .sp == 0x1000 && t.flags.cf && t.flags.ief &&
      t.flags.df && t.flags.tf && t.flags.ovf) = true := by decide

/-- V183 (R500): CLC. -/
theorem test_v183_clc :
    after [0xF8] (start |> flagged .cf true) (fun t =>
      !t.flags.cf && t.ip == 0x0001) = true := by decide

/-- V184 (R501): STC. -/
theorem test_v184_stc :
    after [0xF9] start (fun t =>
      t.flags.cf) = true := by decide

/-- V185 (R502): CMC. -/
theorem test_v185_cmc :
    after [0xF5] (start |> flagged .cf true) (fun t =>
      !t.flags.cf) = true := by decide

/-- V186 (R503): CLI. -/
theorem test_v186_cli :
    after [0xFA] (start |> flagged .ief true) (fun t =>
      !t.flags.ief) = true := by decide

/-- V187 (R504): STI. -/
theorem test_v187_sti :
    after [0xFB] start (fun t =>
      t.flags.ief) = true := by decide

/-- V188 (R505): CLD. -/
theorem test_v188_cld :
    after [0xFC] (start |> flagged .df true) (fun t =>
      !t.flags.df) = true := by decide

/-- V189 (R506): STD. -/
theorem test_v189_std :
    after [0xFD] start (fun t =>
      t.flags.df) = true := by decide

/-- V190 (R507): HLT. -/
theorem test_v190_hlt :
    after [0xF4] start (fun t =>
      t.ip == 0x0001 && t.halted) = true := by decide

/-- V192 (R508): WAIT. -/
theorem test_v192_wait :
    after [0x9B] start (fun t =>
      t.ip == 0x0001) = true := by decide

/-- V194 (R509): LOCK ADD [BX],AL. -/
theorem test_v194_lock_add :
    after [0xF0, 0x00, 0x07] (start |>.setR16 .bx 0x0200 |>.setR8 .al 0x01 |> poke 0x00200 [0x00]) (fun t =>
      t.ip == 0x0003 && peek 0x00200 1 t == [0x01]) = true := by decide

/-- V195 (R510): NOP. -/
theorem test_v195_nop :
    after [0x90] (start |>.setR16 .ax 0x1234) (fun t =>
      t.r16 .ax == 0x1234 && t.ip == 0x0001) = true := by decide

/-- V196 (R511): ESC 0,[0x200]. -/
theorem test_v196_esc_0 :
    after [0xD8, 0x06, 0x00, 0x02] start (fun t =>
      t.ip == 0x0004) = true := by decide

/-- V197 (R511): ESC 7,reg. -/
theorem test_v197_esc_7 :
    after [0xDF, 0xC0] start (fun t =>
      t.ip == 0x0002) = true := by decide

/-- V199 (R130): MOV AX,[BP+SI] (SS default). -/
theorem test_v199_mov_ax :
    after [0x8B, 0x02] (start |>.setSreg .ss 0x0030 |>.setR16 .bp 0x0010 |>.setR16 .si 0x0002
      |> poke 0x00312 [0xAA, 0x55] |> poke 0x00012 [0x11, 0x11]) (fun t =>
      t.r16 .ax == 0x55AA) = true := by decide

/-- V202 (R134): ES: MOV AX,[BP+0] (prefix wins). -/
theorem test_v202_es_mov :
    after [0x26, 0x8B, 0x46, 0x00] (start |>.setSreg .ss 0x0030 |>.setSreg .es 0x0040 |>.setR16 .bp 0x0010
      |> poke 0x00410 [0xEF, 0xBE] |> poke 0x00310 [0x11, 0x11]) (fun t =>
      t.r16 .ax == 0xBEEF) = true := by decide

/-- V205 (R140): ES: DS: MOV AL,[0] (last override wins). -/
theorem test_v205_es_ds :
    after [0x26, 0x3E, 0xA0, 0x00, 0x00] (start |>.setSreg .es 0x0020 |>.setSreg .ds 0x0030
      |> poke 0x00300 [0x33] |> poke 0x00200 [0x22]) (fun t =>
      t.r8 .al == 0x33 && t.ip == 0x0005) = true := by decide

/-- V206 (R140): 2E 0F (fault at the opcode byte). -/
theorem test_v206_2e_0f :
    after [0x2E, 0x0F] start (fun t =>
      faulted .invalidOpcode 0x0F 0x1000 0x0001 t) = true := by decide

/-- V210 (R138): ADD word [BX+2],-2 (83, imm after disp). -/
theorem test_v210_add_word :
    after [0x83, 0x47, 0x02, 0xFE] (start |>.setR16 .bx 0x0200 |> poke 0x00202 [0x05, 0x00]) (fun t =>
      t.ip == 0x0004 && t.flags.cf && peek 0x00202 2 t == [0x03, 0x00]) = true := by decide

/-- V211 (R120): IP wraps past 0xFFFF. -/
theorem test_v211_ip_wraps :
    after [0x90] (start |>.setIp 0xFFFF) (fun t =>
      t.ip == 0x0000) = true := by decide

/-- V214 (R601): external vector 8, IF = 1, then the handler NOP. -/
theorem test_v214_external_vector :
    after [0x90] (start |> flagged .ief true |> poke 0x00020 [0x00, 0x06, 0x00, 0x00] |> poke 0x00600 [0x90]
      |> pending 8) (fun t =>
      t.sreg .cs == 0x0000 && t.ip == 0x0601 && t.r16 .sp == 0x0FFA && !t.flags.ief &&
      peek 0x00FFA 2 t == [0x00, 0x00] && peek 0x00FFC 2 t == [0x00, 0x10] &&
      peek 0x00FFE 2 t == [0x02, 0xF2]) = true := by decide

/-- V218 (R631): REP INC AX (effects done, then fatal). -/
theorem test_v218_rep_inc :
    after [0xF3, 0x40] (start |>.setR16 .ax 0x0001) (fun t =>
      faulted .unsupportedPrefixCombination 0x40 0x1000 0x0001 t && t.r16 .ax == 0x0002) = true := by decide

/-! ## Premises are met: encoding, reset, addresses, cores -/

/-- A platform with a ROM at the top, whose first byte at reset is a far jump's, and a device below it. -/
def mapped : State :=
  start.hostMove (.setMemory [⟨0xF0000, 0x10000, .rom⟩, ⟨0xB8000, 0x8000, .device⟩] [(0xFFFF0, 0xEA), (0xB8000, 1)])

/-- An answer ready for the next read of a byte that no memory holds. -/
def ready (b : Byte) (s : State) : State := s.hostMove (.answerMemory b)

/-- DecodeOfEncode. -/
theorem test_witness_decode_of_encode :
    Instr.wf (.addEvIv (.mem (.disp16 .bpDi 0xFFFF)) 0xFFFF) = true ∧ Instr.wf (.invalidForm 0xC4 7 7) = true := by
  decide

/-- EncodeOfDecode: a list that decodes, with bytes left over. -/
theorem test_witness_encode_of_decode : decode [0x8F, 0xC4, 0x90] = .ok (.popEv (.reg .sp), [0x90]) := by decide

/-- SixBytesAlwaysDecode: the longest instruction takes all six. -/
theorem test_witness_six_bytes :
    [0xC7, 0x86, 0x34, 0x12, 0x78, 0x56].length = 6 ∧
    decode [0xC7, 0x86, 0x34, 0x12, 0x78, 0x56] = .ok (.movEvIv (.mem (.disp16 .bp 0x1234)) 0x5678, []) := by decide

/-- ResetEntryPoint: the first and last of the sixteen offsets, and the byte after them; a bus with a ROM that holds
the first byte. -/
theorem test_witness_reset_entry :
    (0 : Word).toNat ≤ 0xF ∧ (0xF : Word).toNat ≤ 0xF ∧ ¬(0x10 : Word).toNat ≤ 0xF ∧
    (phys 0xFFFF 0).toNat = 0xFFFF0 ∧ (phys 0xFFFF 0xF).toNat = 0xFFFFF ∧ phys 0xFFFF 0x10 = 0 ∧
    mapped.bus.answer 0xFFFF0 = 0xEA := by decide

/-- PhysicalAddress at the top of the space. -/
theorem test_phys_top : phys 0xFFFF 0xFFFF = 0x0FFEF ∧ phys 0x1234 0x0005 = 0x12345 := by decide

/-- ByteHalves: a register a byte write does not reach, and both halves. -/
theorem test_witness_byte_halves :
    Reg16.bx ≠ parentReg .ah ∧ isHighHalf .ah = true ∧ isHighHalf .al = false ∧
    ((start.setR16 .ax 0x1234).setR8 .ah 0x56).r16 .ax = 0x5634 := by decide

/-- MemoryReadAfterWrite: a word at the top of the space wraps to address 0; RAM on both sides. -/
theorem test_word_wraps :
    start.RamWord 0xFFFFF ∧ (start.writeWord 0xFFFFF 0x1234).memByte 0 = some 0x12 ∧
    (start.writeWord 0xFFFFF 0x1234).memByte 0xFFFFF = some 0x34 ∧
    (start.writeWord 0xFFFFF 0x1234).readWord 0xFFFFF = 0x1234 ∧ (2 : PAddr) ≠ 0 ∧ (2 : PAddr) ≠ 0 + 1 :=
  ⟨⟨rfl, rfl⟩, by decide, by decide, by decide, by decide, by decide⟩

/-- MemoryReadAfterWrite: ROM and a device keep what they have, and RAM beside them takes the byte; a word across the
edge of a window lands in its RAM half. -/
theorem test_kinds :
    mapped.kindAt 0xF0000 = .rom ∧ mapped.kindAt 0xEFFFF = .ram ∧ mapped.kindAt 0xB8000 = .device ∧
    mapped.kindAt 0xBFFFF = .device ∧ mapped.kindAt 0xC0000 = .ram ∧ mapped.memByte 0xFFFF0 = some 0xEA ∧
    (mapped.writeByte 0xFFFF0 0).memByte 0xFFFF0 = some 0xEA ∧ (mapped.writeByte 0xB8000 7).memByte 0xB8000 = none ∧
    ((mapped.writeWord 0xEFFFF 0x1234).memByte 0xEFFFF = some 0x34 ∧
      (mapped.writeWord 0xEFFFF 0x1234).memByte 0xF0000 = none) := by decide

/-- MemoryReadAfterWrite: a byte memory holds; a byte it does not, with an answer ready, behind a device and in RAM
that nothing wrote; and with none. -/
theorem test_answers :
    mapped.memByte 0xFFFF0 = some 0xEA ∧
    (mapped.memByte 0xB8000 = none ∧ (ready 0x41 mapped).bus.memIn = [0x41] ∧
      (ready 0x41 mapped).readByte 0xB8000 = 0x41 ∧
      ((ready 0x41 mapped).afterReadByte 0xB8000).bus.memIn = []) ∧
    ((ready 0x41 start).readByte 0x00500 = 0x41) ∧ (start.memByte 0x00500 = none ∧ start.bus.memIn = []) := by decide

/-- A word read of a device is one call, whatever answers its bytes (R90, R93). -/
theorem test_word_call :
    ((ready 0x42 (ready 0x41 mapped)).afterReadWord 0xB8000).bus.calls = [.readWord 0xB8000 0x4241] := by decide

/-- The canonical form: cells in the order of their addresses, a cell replaced in place (log 3). -/
theorem test_canonical :
    ((start.writeByte 5 7).writeByte 5 0).bus.mem = [(5, 0)] ∧
    ((start.writeByte 9 1).writeByte 5 7).bus.mem = [(5, 7), (9, 1)] ∧ mapped.bus.wf = true := by decide

/-- PackedWrite: two words that differ in reserved bits only. -/
theorem test_witness_packed_write :
    ((0xF02A : Word) ^^^ 0x0000) &&& 0x0FD5 = 0 ∧ flagsOfPacked 0xF02A = flagsOfPacked 0 := by decide

/-- PackedRead and InterruptThenIret: the default forced bits touch no flag. -/
theorem test_witness_forced_bits :
    (0xF002 : Word) &&& 0x0FD5 = 0 ∧ start.params.flagsForcedOnes &&& 0x0FD5 = 0 := by decide

/-- AdditionCore, SubtractionCore, OverflowAndAdjust, LogicAndTest, ShiftForms, ShiftArithmetic: both widths, and a
count. -/
theorem test_witness_widths :
    (8 = 8 ∨ 8 = 16) ∧ (16 = 8 ∨ 16 = 16) ∧ 1 ≠ 0 ∧
    addResult (0xFF : Byte) 0 true = 0 ∧ (addFlags .intel (0xFF : Byte) 0 true Flags.clear).cf = true ∧
    subResult (0 : Word) 0xFFFF true = 0 ∧ (subFlags .intel (0 : Word) 0xFFFF true Flags.clear).cf = true := by decide

/-! ## Premises are met: divides, decimal addition -/

/-- DIV by a byte: the largest dividend of a divisor with quotient 0xFF, and the quotient of a dividend below
its divisor. -/
theorem test_witness_div8 :
    let s := (start.setR16 .ax 0xFEFF).setR8 .bl 0xFF
    let u := (start.setR16 .ax 0x0006).setR8 .bl 7
    ((s.rmByte (.reg .bl)).toNat ≠ 0 ∧ (s.r16 .ax).toNat / (s.rmByte (.reg .bl)).toNat ≤ 0xFF) ∧
    ((u.rmByte (.reg .bl)).toNat ≠ 0 ∧ (u.r16 .ax).toNat / (u.rmByte (.reg .bl)).toNat ≤ 0xFF) := by decide

/-- DIV by a word at quotient 0xFFFF. -/
theorem test_witness_div16 :
    let s := ((start.setR16 .dx 0xFFFE).setR16 .ax 0xFFFF).setR16 .bx 0xFFFF
    (s.rmWord (.reg .bx)).toNat ≠ 0 ∧
    ((s.r16 .dx).toNat * 0x10000 + (s.r16 .ax).toNat) / (s.rmWord (.reg .bx)).toNat ≤ 0xFFFF := by decide

/-- IDIV by a byte at quotients -128 and 127. -/
theorem test_witness_idiv8 :
    let s := (start.setR16 .ax 0xFF80).setR8 .bl 1
    let u := (start.setR16 .ax 0x007F).setR8 .bl 1
    ((s.rmByte (.reg .bl)).toInt ≠ 0 ∧
      (if s.params.idivAcceptMin then -128 else -127) ≤ (s.r16 .ax).toInt.tdiv (s.rmByte (.reg .bl)).toInt ∧
      (s.r16 .ax).toInt.tdiv (s.rmByte (.reg .bl)).toInt ≤ 127) ∧
    ((u.rmByte (.reg .bl)).toInt ≠ 0 ∧
      (if u.params.idivAcceptMin then -128 else -127) ≤ (u.r16 .ax).toInt.tdiv (u.rmByte (.reg .bl)).toInt ∧
      (u.r16 .ax).toInt.tdiv (u.rmByte (.reg .bl)).toInt ≤ 127) := by decide

/-- IDIV by a word at quotient -32768. -/
theorem test_witness_idiv16 :
    let s := ((start.setR16 .dx 0xFFFF).setR16 .ax 0x8000).setR16 .bx 1
    let n := (s.r16 .dx).toInt * 0x10000 + (s.r16 .ax).toNat
    (s.rmWord (.reg .bx)).toInt ≠ 0 ∧
    (if s.params.idivAcceptMin then -32768 else -32767) ≤ n.tdiv (s.rmWord (.reg .bx)).toInt ∧
    n.tdiv (s.rmWord (.reg .bx)).toInt ≤ 32767 := by decide

/-- DivideErrorTaken for bytes: divisor 0, DIV quotient 256, IDIV quotients 128 and -129, and -128 when the
parameter refuses it. -/
theorem test_witness_divide_error8 :
    let z := start
    let s := (start.setR16 .ax 0x0100).setR8 .bl 1
    let u := (start.setR16 .ax 0x0080).setR8 .bl 1
    let v := (start.setR16 .ax 0xFF7F).setR8 .bl 1
    let p := { (start.setR16 .ax 0xFF80).setR8 .bl 1 with params := { defaultParams with idivAcceptMin := false } }
    (z.rmByte (.reg .bl)).toNat = 0 ∧ (z.rmByte (.reg .bl)).toInt = 0 ∧
    (s.r16 .ax).toNat / (s.rmByte (.reg .bl)).toNat > 0xFF ∧
    (u.r16 .ax).toInt.tdiv (u.rmByte (.reg .bl)).toInt > 127 ∧
    (v.r16 .ax).toInt.tdiv (v.rmByte (.reg .bl)).toInt < (if v.params.idivAcceptMin then -128 else -127) ∧
    (p.r16 .ax).toInt.tdiv (p.rmByte (.reg .bl)).toInt < (if p.params.idivAcceptMin then -128 else -127) := by decide

/-- DivideErrorTaken for words: divisor 0, DIV quotient 0x10000, IDIV quotients 32768 and -32769. -/
theorem test_witness_divide_error16 :
    let z := start
    let s := (start.setR16 .dx 1).setR16 .bx 1
    let u := (start.setR16 .ax 0x8000).setR16 .bx 1
    let v := ((start.setR16 .dx 0xFFFF).setR16 .ax 0x7FFF).setR16 .bx 1
    (z.rmWord (.reg .bx)).toNat = 0 ∧ (z.rmWord (.reg .bx)).toInt = 0 ∧
    ((s.r16 .dx).toNat * 0x10000 + (s.r16 .ax).toNat) / (s.rmWord (.reg .bx)).toNat > 0xFFFF ∧
    ((u.r16 .dx).toInt * 0x10000 + (u.r16 .ax).toNat).tdiv (u.rmWord (.reg .bx)).toInt > 32767 ∧
    ((v.r16 .dx).toInt * 0x10000 + (v.r16 .ax).toNat).tdiv (v.rmWord (.reg .bx)).toInt
      < (if v.params.idivAcceptMin then -32768 else -32767) := by decide

/-- DecimalAdjust: AAM's base not 0. DecimalAddition: 99 + 99 and 0 + 0. -/
theorem test_witness_decimal :
    (0x0A : Byte) ≠ 0 ∧ start.params.afMode = .intel ∧
    ((start.setR8 .al 0x99).r8 .al).toNat = 16 * (99 / 10) + 99 % 10 ∧ (start.r8 .al).toNat = 16 * (0 / 10) + 0 % 10 := by
  decide

/-! ## Premises are met: strings, shifts, stack, ports -/

/-- StringOnce. -/
theorem test_witness_string_once : start.rep = .none := by decide

/-- RepeatUnrolls: both prefixes, CX = 0 and CX = 1; the zero flag that ends a compare and the one that does
not. -/
theorem test_witness_repeat_unrolls :
    let s := { start with rep := .repz }
    let u := { start.setR16 .cx 1 with rep := .repnz }
    (s.rep ≠ .none ∧ s.r16 .cx = 0) ∧ (u.rep ≠ .none ∧ u.r16 .cx ≠ 0) ∧
    StringOp.scas.compares = true ∧ StringOp.stos.compares = false ∧
    start.flags.zf = decide (({ start with rep := .repz } : State).rep = .repnz) ∧
    start.flags.zf ≠ decide (({ start.setR16 .cx 1 with rep := .repnz } : State).rep = .repnz) := by decide

/-- RepeatedStore: an even DI, CX = 0x8000, the first and the last word, and a byte outside all words of a
count of 1. -/
theorem test_witness_repeated_store :
    let s := { start.setR16 .cx 0x8000 with rep := .repz }
    let u := { start.setR16 .cx 1 with rep := .repz }
    (s.rep ≠ .none ∧ (s.r16 .di).toNat % 2 = 0 ∧ (s.r16 .cx).toNat ≤ 0x8000 ∧ 0 < (s.r16 .cx).toNat ∧
      0x7FFF < (s.r16 .cx).toNat) ∧
    (∀ k, k < (u.r16 .cx).toNat → (2 : PAddr) ≠ u.destAt 2 k ∧ (2 : PAddr) ≠ u.destAt 2 k + 1) ∧
    (∀ k, k < (u.r16 .cx).toNat → (1 : PAddr) ≠ u.destAt 1 k) := by decide

/-- ShiftForms: CL = 0, CL = 1 and CL = 255; a shift and a rotate. -/
theorem test_witness_shift_forms :
    start.r8 .cl = 0 ∧ (start.setR8 .cl 1).r8 .cl ≠ 0 ∧ (start.setR8 .cl 0xFF).r8 .cl ≠ 0 ∧
    ShiftOp.shl.isShift = true ∧ ShiftOp.rcl.isShift = false ∧ ((start.setR8 .cl 1).r8 .cl).toNat = 1 := by decide

/-- PopForms, PushThenPop, CallThenReturn, IretPops: a stack in RAM, a register and an operand other than SP, a segment
register other than CS. -/
theorem test_witness_not_sp :
    start.RamWord (phys (start.sreg .ss) (start.r16 .sp - 2)) ∧
    start.RamWord (phys (start.sreg .ss) (start.r16 .sp - 4)) ∧ Reg16.ax ≠ .sp ∧ Rm.reg Reg16.ax ≠ .reg .sp ∧
    (Rm.mem (.direct 0) : Rm Reg16) ≠ .reg .sp ∧ SegReg.ds ≠ .cs :=
  ⟨⟨rfl, rfl⟩, ⟨rfl, rfl⟩, by decide⟩

/-- Ports: both forms of IN, an answer ready and none. -/
theorem test_witness_ports :
    (Instr.inAlIb 0x60 = .inAlIb 0x60 ∧ (0x60 : Word) = (0x60 : Byte).setWidth 16) ∧
    (Instr.inAlDx = .inAlDx ∧ (0x3DA : Word) = (start.setR16 .dx 0x3DA).r16 .dx) ∧
    (answer 0x1C start).bus.portIn = [0x1C] ∧ start.bus.portIn = [] := by decide

/-! ## Premises are met: interrupts and the step -/

/-- InterruptEntry: vector 0 and vector 0xFF with a stack away from the table, and a stack upon it where the
premise fails. -/
theorem test_witness_interrupt_entry :
    (∀ pa ∈ start.pushBytes 3, pa ≠ (0 : PAddr) ∧ pa ≠ (0 : PAddr) + 1 ∧ pa ≠ (0 : PAddr) + 2 ∧ pa ≠ (0 : PAddr) + 3) ∧
    (∀ pa ∈ start.pushBytes 3, pa ≠ (0x3FC : PAddr) ∧ pa ≠ (0x3FC : PAddr) + 1 ∧ pa ≠ (0x3FC : PAddr) + 2 ∧
      pa ≠ (0x3FC : PAddr) + 3) ∧
    (poke 0x3FE [0x21, 0x43] start).memWord 0x3FE = some 0x4321 ∧
    ¬(∀ pa ∈ (start.setR16 .sp 4).pushBytes 3, pa ≠ (0 : PAddr)) ∧
    (0x3FC : PAddr).toNat = (0xFF : Byte).toNat * 4 := by
  have h : start.pushBytes 3 = [0x00FFE, 0x00FFF, 0x00FFC, 0x00FFD, 0x00FFA, 0x00FFB] := rfl
  have h' : (start.setR16 .sp 4).pushBytes 3 = [2, 3, 0, 1, 0x0FFFE, 0x0FFFF] := rfl
  rw [h, h']
  refine ⟨?_, ?_, rfl, fun hk => hk 0 (by simp) rfl, rfl⟩ <;> simp

/-- InterruptThenIret: the stack's six bytes are RAM. -/
theorem test_witness_interrupt_stack : ∀ pa ∈ start.pushBytes 3, start.kindAt pa = .ram := fun _ _ => rfl

/-- SoftwareInterrupts: OF set and clear. -/
theorem test_witness_into : (flagged .ovf true start).flags.ovf = true ∧ start.flags.ovf = false := by decide

/-- StepRunsDecodedInstruction, first clause, and EveryFetchEnds. -/
theorem test_witness_fetches : start.fetches ∧ State.reset.fetches := ⟨⟨rfl, rfl, rfl⟩, rfl, rfl, rfl⟩

/-- TEST byte [BX],Ib stands at CS:IP, its operand a device's; the bus answers the operand and then the immediate. -/
def testOfDevice : State :=
  poke 0x10000 [0xF6, 0x07] (mapped.setSreg .ds 0xB800) |> ready 0x81 |> ready 0x80

/-- StepRunsDecodedInstruction, second clause: an instruction, a prefix, one of six bytes of which memory holds five and
the bus answers the last, and a TEST whose immediate the bus answers after the operand. -/
theorem test_witness_step_runs :
    let s := poke 0x10000 [0x90] start
    let u := poke 0x10000 [0xF0] start
    let v := ready 0x56 (poke 0x10000 [0xC7, 0x86, 0x34, 0x12, 0x78] start)
    (s.beginInstr.Presents .nop ∧
      exec .nop (s.beginInstr.atExec .nop) = .next (s.beginInstr.afterBytes 1) ∧ isPrefixByte .nop = false) ∧
    (u.beginInstr.Presents .pfxLock ∧
      exec .pfxLock (u.beginInstr.atExec .pfxLock) = .next { u.beginInstr.afterBytes 1 with lock := true } ∧
      isPrefixByte .pfxLock = true) ∧
    v.beginInstr.Presents (.movEvIv (.mem (.disp16 .bp 0x1234)) 0x5678) ∧
    testOfDevice.beginInstr.Presents (.testEbIb (.mem (.base .bx)) 0x80) :=
  ⟨⟨⟨⟨rfl, trivial⟩, trivial⟩, rfl, rfl⟩, ⟨⟨⟨rfl, trivial⟩, trivial⟩, rfl, rfl⟩,
    ⟨⟨rfl, rfl, rfl, rfl, rfl, rfl, trivial⟩, trivial⟩, ⟨rfl, rfl, trivial⟩, rfl⟩

/-- Its step: the operand is read before the immediate, and both answers are taken (R93, R263, D37). -/
theorem test_test_reads_operand_first :
    (match step testOfDevice with
      | .next t => t.ip == 3 && t.flags.sf && t.bus.memIn == [] && t.bus.calls ==
          [.readByte 0x10002 0x80, .readByte 0xB8000 0x81, .readByte 0x10001 0x07, .readByte 0x10000 0xF6]
      | _ => false) = true := by decide

/-- The word form, all of it in RAM: the operand, then the immediate's low and high byte; IP past them (R263). -/
theorem test_test_word_calls :
    after [0xF7, 0x07, 0x34, 0x12] (start.setR16 .bx 0x0200) (fun t => t.ip == 4 && t.bus.calls.drop 3 ==
      [.readByte 0x10001 0x07, .readByte 0x10000 0xF7] && t.bus.calls.take 2 ==
      [.readByte 0x10003 0x12, .readByte 0x10002 0x34]) = true := by decide

/-- StepRunsDecodedInstruction, last clause: a fault kept, a repeat prefix left, neither; the single step on
and off. -/
theorem test_witness_finish :
    (start.raiseInvalid 0x0F none).faultRec ≠ none ∧
    (start.faultRec = none ∧ ({ start with rep := .repz } : State).rep ≠ .none) ∧ start.rep = .none ∧
    ({ start with params := { defaultParams with singleStep := true } } : State).params.singleStep = true ∧
    start.params.singleStep = false := by decide

/-- RepeatPrefixIsFatal: INC AX after F3. -/
theorem test_witness_repeat_fatal :
    let s := { poke 0x10000 [0x40] start with rep := .repz }
    s.rep ≠ .none ∧ s.faultRec = none ∧ Instr.wf (.incR16 .ax) = true ∧ s.beginInstr.Presents (.incR16 .ax) ∧
    isPrefixByte (.incR16 .ax) = false ∧ declaresRepeat (.incR16 .ax) = false ∧ isInvalid (.incR16 .ax) = false :=
  ⟨by decide, rfl, rfl, ⟨⟨rfl, trivial⟩, trivial⟩, rfl, rfl, rfl⟩

/-- PollAndRefusals: each of the five clauses. -/
theorem test_witness_poll :
    ((pending 8 (flagged .ief true start)).irq = [8] ∧ (pending 8 (flagged .ief true start)).flags.ief = true) ∧
    (start.irq = [] ∨ start.flags.ief = false) ∧ ((pending 8 start).irq ≠ [] ∧ (pending 8 start).flags.ief = false) ∧
    (({ start with halted := true } : State).busInstalled = true ∧ ({ start with halted := true } : State).faultRec = none ∧
      ({ start with halted := true } : State).halted = true ∧ ({ start with halted := true } : State).irq = []) ∧
    (start.busInstalled = true ∧ (start.raiseInvalid 0x0F none).faultRec ≠ none) ∧
    ({ start with busInstalled := false } : State).busInstalled = false := by decide

/-- Two prefixes and the instruction after them: each byte is read once and nothing after the last (R93, R99). -/
theorem test_two_prefixes :
    after [0x26, 0xF0, 0x90] start (fun t => t.ip == 3 && t.lock && t.segOverride == some .es &&
      t.bus.calls == [.readByte 0x10002 0x90, .readByte 0x10001 0xF0, .readByte 0x10000 0x26]) = true := by decide

/-- MOV [BX],AX makes one call after its two fetches and does not read its destination (R93). -/
theorem test_store_calls :
    after [0x89, 0x07] (start.setR16 .bx 0x0200) (fun t =>
      t.bus.calls == [.writeWord 0x00200 0, .readByte 0x10001 0x07, .readByte 0x10000 0x89]) = true := by decide

/-- ADD [BX],AL on a device reads the bus's answer once and then writes once, and no memory holds the sum. -/
theorem test_device_add :
    after [0x00, 0x07] (mapped |>.setSreg .ds 0xB800 |>.setR8 .al 2 |> ready 0x41) (fun t =>
      t.bus.calls.take 2 == [.writeByte 0xB8000 0x43, .readByte 0xB8000 0x41] && t.memByte 0xB8000 == none &&
      t.bus.memIn == []) = true := by decide

/-- StepKeepsMemoryForm: a state whose memory lists a cell, and a step from it. -/
theorem test_witness_memory_form :
    let s := poke 0x10000 [0x90] start
    s.memOk ∧ s.bus.mem = [(0x10000, 0x90)] ∧ step s = .next { s.clearPrefixes with
      opCs := 0x1000, opIp := 0, ip := 1, bus := { s.bus with calls := [.readByte 0x10000 0x90] } } :=
  ⟨rfl, rfl, rfl⟩

/-- RegisterFrame, FlagFrame, MemoryFrame, ControlFrame: INC AX answers a next state; registers, flags, segment
registers and a byte outside its footprint. -/
theorem test_witness_frames :
    (match exec (.incR16 .ax) start with
      | .next t => t.r16 .ax == 1
      | _ => false) = true ∧
    Reg16.bx ∉ start.writtenRegs (.incR16 .ax) ∧ start.writtenHalves (.incR16 .ax) = [] ∧
    parentReg .bl ∉ start.writtenRegs (.incR16 .ax) ∧ SegReg.cs ∉ start.writtenSegs (.incR16 .ax) ∧
    writesCs (.incR16 .ax) = false ∧ FlagName.cf ∉ start.writtenFlags (.incR16 .ax) ∧
    start.storedBytes (.incR16 .ax) = [] ∧ start.movesIp (.incR16 .ax) = false ∧
    isInvalid (.incR16 .ax) = false ∧ Instr.wf (.incR16 .ax) = true := by decide

/-- The frames of a storing form, of a string form and of a divide error: the bytes are the form's own. -/
theorem test_footprints :
    start.storedBytes (.movEvGv (.mem (.direct 0xFFFF)) .ax) = [0x0FFFF, 0x10000] ∧
    start.storedBytes (.cmpEvGv (.mem (.direct 0x0200)) .ax) = [] ∧
    ({ start.setR16 .cx 2 with rep := .repz } : State).storedBytes .stosb = [0, 1] ∧
    start.storedBytes (.pushR16 .ax) = [0x00FFE, 0x00FFF] ∧
    start.storedBytes (.divEb (.reg .bl)) = [0x00FFE, 0x00FFF, 0x00FFC, 0x00FFD, 0x00FFA, 0x00FFB] := by decide

/-- FlagFrame: both settings of P_UNDEF_FLAGS; the undefined flags of a shift by CL for counts 0, 1 and 2, of MUL and of
a divide that faults. -/
theorem test_witness_undefined :
    ({ start with params := { defaultParams with undefFlags := .unchanged } } : State).params.undefFlags = .unchanged ∧
    start.params.undefFlags = .draw ∧ start.undefinedFlags (.shlEbCl (.reg .al)) = [] ∧
    (start.setR8 .cl 1).undefinedFlags (.shlEbCl (.reg .al)) = [.af] ∧
    (start.setR8 .cl 2).undefinedFlags (.shlEbCl (.reg .al)) = [.ovf, .af] ∧
    (start.undefinedFlags (.mulEb (.reg .bl)))[3]? = some .pf ∧ start.undefinedFlags (.divEb (.reg .bl)) = [] := by decide

/-- MUL under P_UNDEF_FLAGS = unchanged keeps SF, ZF, AF and PF (R48). -/
theorem test_mul_unchanged :
    after [0xF6, 0xE3] ({ flagged .zf true (start.setR8 .al 3) with
        params := { defaultParams with undefFlags := .unchanged } }.setR8 .bl 5) (fun t =>
      t.r16 .ax == 15 && t.flags.zf && !t.flags.sf && !t.flags.pf && !t.flags.cf && t.draws == 0) = true := by decide

/-- MemoryFrame and ControlFrame: an instruction that calls no bus, one that does, one that is no IN. -/
theorem test_witness_no_call :
    start.callsBus (.incR16 .ax) = false ∧ start.callsBus (.lea .ax (.direct 0)) = false ∧
    start.callsBus (.incEv (.mem (.direct 0))) = true ∧ (∀ b, Instr.nop ≠ .inAlIb b) ∧ Instr.nop ≠ .inAlDx :=
  ⟨rfl, rfl, rfl, fun _ => Instr.noConfusion, Instr.noConfusion⟩

/-- The end of a run (70_reset_and_hazards.md R731). -/
theorem test_run_status :
    start.runStatus = .running ∧ ({ start with halted := true } : State).runStatus = .stuck ∧
    (flagged .ief true { start with halted := true }).runStatus = .idle ∧
    (start.raiseInvalid 0x0F none).runStatus = .faulted := by decide

end Sys2Proof.Machine.Tests
end

section
/-! The byte registers and the packed flags, proved (10_state.md R31, R41). -/

namespace Sys2Proof.Machine

/-! ## Byte halves (R31) -/

/-- A word whose low byte is replaced, as the spec masks it. -/
theorem leWord_highByte_eq_mask (w : Word) (v : Byte) :
    leWord v (highByte w) = (w &&& 0xFF00) ||| v.setWidth 16 := by
  apply BitVec.eq_of_getLsbD_eq
  intro k hk
  simp only [leWord, highByte, BitVec.getLsbD_append, BitVec.getLsbD_extractLsb', BitVec.getLsbD_or,
    BitVec.getLsbD_and, BitVec.getLsbD_setWidth]
  interval_cases k <;> simp

/-- A word whose high byte is replaced, as the spec masks it. -/
theorem leWord_lowByte_eq_mask (w : Word) (v : Byte) :
    leWord (lowByte w) v = (w &&& 0x00FF) ||| (v.setWidth 16 <<< 8) := by
  apply BitVec.eq_of_getLsbD_eq
  intro k hk
  simp only [leWord, lowByte, BitVec.getLsbD_append, BitVec.getLsbD_extractLsb', BitVec.getLsbD_or,
    BitVec.getLsbD_and, BitVec.getLsbD_shiftLeft, BitVec.getLsbD_setWidth]
  interval_cases k <;> simp

/-- A byte register as a number, from the word it is half of. -/
theorem State.r8_toNat (s : State) (r : Reg8) : (s.r8 r).toNat =
    if isHighHalf r then (s.r16 (parentReg r)).toNat / 256 else (s.r16 (parentReg r)).toNat % 256 := by
  rw [State.r8_eq]
  split <;> simp

/-- The word a byte write leaves, as the spec masks it: the other half stays. -/
theorem State.r16_setR8_parent_eq_mask (s : State) (r : Reg8) (v : Byte) :
    (s.setR8 r v).r16 (parentReg r) =
      if isHighHalf r then (s.r16 (parentReg r) &&& 0x00FF) ||| (v.setWidth 16 <<< 8)
      else (s.r16 (parentReg r) &&& 0xFF00) ||| v.setWidth 16 := by
  rw [State.r16_setR8_self, leWord_lowByte_eq_mask, leWord_highByte_eq_mask]

/-- A word write seen through a byte register that is half of it. -/
theorem State.r8_setR16_parent_toNat (s : State) (r : Reg8) (v : Word) :
    ((s.setR16 (parentReg r) v).r8 r).toNat = if isHighHalf r then v.toNat / 256 else v.toNat % 256 := by
  rw [State.r8_toNat, State.r16_setR16_self]

/-- Settles O9: reads and masked writes are one statement over the eight byte registers, taken at each of them. -/
theorem byteHalves : Obligations.ByteHalves := by
  unfold Obligations.ByteHalves
  refine ⟨fun s => ?reads, fun s v => ?writes, State.r8_setR8, fun s _ _ v h => s.r16_setR8_ne v h,
    State.r8_setR16_parent_toNat⟩
  case reads =>
    have read := s.r8_toNat
    exact ⟨read .al, read .ah, read .bl, read .bh, read .cl, read .ch, read .dl, read .dh⟩
  case writes =>
    have written := fun r => s.r16_setR8_parent_eq_mask r v
    exact ⟨written .al, written .ah, written .bl, written .bh, written .cl, written .ch, written .dl, written .dh⟩

/-! ## The packed write (R41) -/

/-- Words that differ only outside a mask agree on every bit of the mask. -/
theorem getLsbD_eq_of_xor_and_eq_zero {v u m : Word} {k : Nat} (h : (v ^^^ u) &&& m = 0)
    (hk : m.getLsbD k = true) : v.getLsbD k = u.getLsbD k := by
  have bit : ((v ^^^ u) &&& m).getLsbD k = false := by simp [h]
  simpa [hk] using bit

/-- The reserved bits are ignored: 0x0FD5 holds the nine flag bits. -/
theorem flagsOfPacked_eq_of_flagBits_eq {v u : Word} (h : (v ^^^ u) &&& 0x0FD5 = 0) :
    flagsOfPacked v = flagsOfPacked u := by
  have bit : ∀ k, (0x0FD5#16).getLsbD k = true → v.getLsbD k = u.getLsbD k :=
    fun _ => getLsbD_eq_of_xor_and_eq_zero h
  rw [flagsOfPacked, flagsOfPacked, bit 0 rfl, bit 2 rfl, bit 4 rfl, bit 6 rfl, bit 7 rfl, bit 8 rfl, bit 9 rfl,
    bit 10 rfl, bit 11 rfl]

theorem exec_popf (s : State) : exec .popf s = .next s.popFlags := rfl

theorem exec_iret (s : State) : exec .iret s = .next s.returnFromInterrupt := rfl

theorem State.popFlags_flags (s : State) : s.popFlags.flags = flagsOfPacked s.popValue := rfl

/-- IRET's flags are the third word popped (48_interrupt_instr.md R494). -/
theorem State.returnFromInterrupt_flags (s : State) :
    s.returnFromInterrupt.flags = flagsOfPacked s.afterPop.afterPop.popValue := by
  rw [State.returnFromInterrupt_eq]
  rfl

/-- The third of three pops, in the bus's terms: the word at SP + 4 after the words at SP and SP + 2 were read. -/
theorem State.popValue_afterPop_afterPop (s : State) : s.afterPop.afterPop.popValue =
    ((s.afterReadWord (phys (s.sreg .ss) (s.r16 .sp))).afterReadWord
      (phys (s.sreg .ss) (s.r16 .sp + 2))).readWord (phys (s.sreg .ss) (s.r16 .sp + 4)) := by
  have sp4 : s.r16 .sp + 2 + 2 = s.r16 .sp + 4 := by bv_omega
  rw [← sp4]
  rfl

/-- Settles O12: the bits by definition, the reserved ones by the mask, POPF and IRET by the word each pops. -/
theorem packedWrite : Obligations.PackedWrite := by
  unfold Obligations.PackedWrite
  refine ⟨fun v => ?bits, fun _ _ => flagsOfPacked_eq_of_flagBits_eq, fun s => ?popf, fun s => ?iret⟩
  case bits => exact ⟨rfl, rfl, rfl, rfl, rfl, rfl, rfl, rfl, rfl⟩
  case popf => exact ⟨_, exec_popf s, s.popFlags_flags⟩
  case iret =>
    refine ⟨_, exec_iret s, ?_⟩
    rw [State.returnFromInterrupt_flags, State.popValue_afterPop_afterPop]

end Sys2Proof.Machine
end

section
/-! The physical address, proved (20_memory.md R81). -/

namespace Sys2Proof.Machine

/-! ## Physical addresses (R81) -/

/-- The segment's shift into 20 bits loses nothing: a word times 16 is below 2^20. -/
theorem toNat_setWidth_shiftLeft_four (seg : Word) : (seg.setWidth 20 <<< 4).toNat = seg.toNat * 16 := by
  have small : seg.toNat < 2 ^ 16 := seg.isLt
  rw [BitVec.toNat_shiftLeft, BitVec.toNat_setWidth_of_le (by decide), Nat.shiftLeft_eq]
  exact Nat.mod_eq_of_lt (by omega)

/-- Only the sum of segment * 16 and the offset can wrap. -/
theorem phys_toNat (seg off : Word) : (phys seg off).toNat = (seg.toNat * 16 + off.toNat) % 2 ^ 20 := by
  rw [phys, BitVec.toNat_add, toNat_setWidth_shiftLeft_four, BitVec.toNat_setWidth_of_le (by decide)]

/-- Settles O8: the sum by `phys_toNat`, its wrap at 2^20 by evaluating the model. -/
theorem physicalAddress : Obligations.PhysicalAddress := by
  unfold Obligations.PhysicalAddress
  exact ⟨phys_toNat, by decide⟩

end Sys2Proof.Machine
end

section
/-! Return from interrupt, proved (48_interrupt_instr.md R494). -/

namespace Sys2Proof.Machine

/-! ## What IRET pops, and where the stack ends (R494) -/

theorem State.returnFromInterrupt_ip (s : State) : s.returnFromInterrupt.ip = s.popValue := by
  simp [State.returnFromInterrupt_eq]

theorem State.returnFromInterrupt_sreg (s : State) (g : SegReg) :
    s.returnFromInterrupt.sreg g = if g = .cs then s.afterPop.popValue else s.sreg g := by
  rw [State.returnFromInterrupt_eq]
  split
  case isTrue h => simp [h]
  case isFalse h => simp [h]

/-- The second of two pops, in the bus's terms: the word at SP + 2 after the word at SP was read. -/
theorem State.popValue_afterPop (s : State) : s.afterPop.popValue =
    (s.afterReadWord (phys (s.sreg .ss) (s.r16 .sp))).readWord (phys (s.sreg .ss) (s.r16 .sp + 2)) := rfl

/-- Three pops, each 2 higher than the one before, modulo 2^16. -/
theorem State.returnFromInterrupt_r16 (s : State) (q : Reg16) :
    s.returnFromInterrupt.r16 q = if q = .sp then s.r16 .sp + 6 else s.r16 q := by
  have sp6 : s.r16 .sp + 2#16 + 2#16 + 2#16 = s.r16 .sp + 6 := by bv_omega
  rw [State.returnFromInterrupt_eq]
  split
  case isTrue h => simp [h, sp6]
  case isFalse h => simp [h]

/-- A pop only reads: what memory holds is kept. -/
@[simp] theorem State.afterPop_bus_mem (s : State) : s.afterPop.bus.mem = s.bus.mem := rfl

theorem State.returnFromInterrupt_bus_mem (s : State) : s.returnFromInterrupt.bus.mem = s.bus.mem := by
  simp [State.returnFromInterrupt_eq]

/-- Settles O49: IRET is three pops, so IP, CS and FLAGS are the words at SP, SP + 2 and SP + 4, each read after the
one before; registers, segments and memory are otherwise what a pop leaves. -/
theorem iretPops : Obligations.IretPops := by
  unfold Obligations.IretPops
  intro s
  refine ⟨_, exec_iret s, s.returnFromInterrupt_ip, ?cs, ?flags, ?sp, fun r hr => ?reg, fun g hg => ?seg,
    s.returnFromInterrupt_bus_mem, s.returnFromInterrupt_halted⟩
  case cs => rw [State.returnFromInterrupt_sreg, if_pos rfl, State.popValue_afterPop]
  case flags => rw [State.returnFromInterrupt_flags, State.popValue_afterPop_afterPop]
  case sp => rw [State.returnFromInterrupt_r16, if_pos rfl]
  case reg => rw [State.returnFromInterrupt_r16, if_neg hr]
  case seg => rw [State.returnFromInterrupt_sreg, if_neg hg]

end Sys2Proof.Machine
end

section
/-! The decoder and the encoder, proved: each reads what the other writes, and six bytes always decode
(30_encoding.md R120 to R157). -/

namespace Sys2Proof

/-! ## What a parser accepts is what the encoder writes -/

/-- Three bytes hold a ModRM byte and its displacement (30_encoding.md R129). -/
theorem exists_eq_encModrm {bs : List Byte} (h : 3 ≤ bs.length) :
    ∃ q m rest, m.wf = true ∧ bs = encModrm q m ++ rest := by
  have answers : ∃ r, withModrm bs (fun _ _ rest => .ok (.nop, rest)) = .ok r := by
    match bs, h with
    | b :: c :: d :: bs, _ =>
      simp only [withModrm, withByte_cons, withWord]
      split
      · split <;> exact ⟨_, rfl⟩
      all_goals exact ⟨_, rfl⟩
  obtain ⟨_, hr⟩ := answers
  obtain ⟨q, m, rest, hm, e, _⟩ := withModrm_ok hr
  exact ⟨q, m, rest, hm, e⟩

/-- After the bytes `pre`, a parser that sees `bs` answers only well-formed instructions whose encoding is `pre` with
the bytes it consumed, and `n` bytes are always enough for an answer. -/
def RoundTrips (pre : List Byte) (n : Nat) (bs : List Byte) (p : Parsed) : Prop :=
  (∀ i rest, p = .ok (i, rest) → i.wf = true ∧ encode i ++ rest = pre ++ bs) ∧ (n ≤ bs.length → ∃ r, p = .ok r)

namespace RoundTrips

variable {pre bs : List Byte} {n : Nat}

theorem ok {i : Instr} (hw : i.wf = true) (he : encode i = pre) : RoundTrips pre n bs (.ok (i, bs)) :=
  ⟨fun j rest h => by cases h; exact ⟨hw, by rw [he]⟩, fun _ => ⟨_, rfl⟩⟩

theorem byte {k : Byte → List Byte → Parsed} (h : ∀ b rest, RoundTrips (pre ++ [b]) n rest (k b rest)) :
    RoundTrips pre (n + 1) bs (withByte bs k) := by
  refine ⟨fun i rest hk => ?_, fun hn => ?_⟩
  · obtain ⟨b, bs, rfl, e⟩ := withByte_ok hk
    simpa using (h b bs).1 i rest e
  · match bs, hn with
    | b :: bs, hn => exact (h b bs).2 (by simpa using hn)

theorem word {k : Word → List Byte → Parsed} (h : ∀ v rest, RoundTrips (pre ++ leBytes v) n rest (k v rest)) :
    RoundTrips pre (n + 2) bs (withWord bs k) := by
  refine ⟨fun i rest hk => ?_, fun hn => ?_⟩
  · obtain ⟨v, bs, rfl, e⟩ := withWord_ok hk
    simpa using (h v bs).1 i rest e
  · match bs, hn with
    | lo :: hi :: bs, hn => exact (h (leWord lo hi) bs).2 (by simpa using hn)
    | [b], hn => simp at hn

theorem modrm {k : BitVec 3 → Rm (BitVec 3) → List Byte → Parsed}
    (h : ∀ q m rest, m.wf = true → RoundTrips (pre ++ encModrm q m) n rest (k q m rest)) :
    RoundTrips pre (n + 3) bs (withModrm bs k) := by
  refine ⟨fun i rest hk => ?_, fun hn => ?_⟩
  · obtain ⟨q, m, bs, hm, rfl, e⟩ := withModrm_ok hk
    simpa using (h q m bs hm).1 i rest e
  · obtain ⟨q, m, rest, hm, rfl⟩ := exists_eq_encModrm (Nat.le_trans (Nat.le_add_left 3 n) hn)
    have short := (encModrm_length q m).2
    rw [List.length_append] at hn
    rw [withModrm_encModrm q m rest k hm]
    exact (h q m rest hm).2 (by omega)

end RoundTrips

/-! ## Each form of instruction -/

section
variable {b : Byte} {bs : List Byte}

theorem formEbGb_roundTrips {f : Rm Reg8 → Reg8 → Instr} (hw : ∀ m r, (f m r).wf = m.wf)
    (he : ∀ m r, encode (f m r) = b :: encModrm r.bits (m.map Reg8.bits)) :
    RoundTrips [b] 5 bs (formEbGb f bs) :=
  .modrm fun _ _ _ hm => .ok (by simpa [hw] using hm) (by simp [he])

theorem formEvGv_roundTrips {f : Rm Reg16 → Reg16 → Instr} (hw : ∀ m r, (f m r).wf = m.wf)
    (he : ∀ m r, encode (f m r) = b :: encModrm r.bits (m.map Reg16.bits)) :
    RoundTrips [b] 5 bs (formEvGv f bs) :=
  .modrm fun _ _ _ hm => .ok (by simpa [hw] using hm) (by simp [he])

theorem formGbEb_roundTrips {f : Reg8 → Rm Reg8 → Instr} (hw : ∀ r m, (f r m).wf = m.wf)
    (he : ∀ r m, encode (f r m) = b :: encModrm r.bits (m.map Reg8.bits)) :
    RoundTrips [b] 5 bs (formGbEb f bs) :=
  .modrm fun _ _ _ hm => .ok (by simpa [hw] using hm) (by simp [he])

theorem formGvEv_roundTrips {f : Reg16 → Rm Reg16 → Instr} (hw : ∀ r m, (f r m).wf = m.wf)
    (he : ∀ r m, encode (f r m) = b :: encModrm r.bits (m.map Reg16.bits)) :
    RoundTrips [b] 5 bs (formGvEv f bs) :=
  .modrm fun _ _ _ hm => .ok (by simpa [hw] using hm) (by simp [he])

theorem formIb_roundTrips {f : Byte → Instr} (hw : ∀ i, (f i).wf = true) (he : ∀ i, encode (f i) = [b, i]) :
    RoundTrips [b] 5 bs (formIb f bs) := .byte fun i _ => .ok (hw i) (he i)

theorem formIv_roundTrips {f : Word → Instr} (hw : ∀ i, (f i).wf = true)
    (he : ∀ i, encode (f i) = b :: leBytes i) : RoundTrips [b] 5 bs (formIv f bs) :=
  .word fun i _ => .ok (hw i) (he i)

theorem formPtr_roundTrips {f : Word → Word → Instr} (hw : ∀ off sg, (f off sg).wf = true)
    (he : ∀ off sg, encode (f off sg) = b :: (leBytes off ++ leBytes sg)) :
    RoundTrips [b] 5 bs (formPtr f bs) := .word fun off _ => .word fun sg _ => .ok (hw off sg) (he off sg)

theorem formGvM_roundTrips {f : Reg16 → MemOp → Instr} (hb : ∀ q, memoryOnly b q = true)
    (hw : ∀ r p, (f r p).wf = p.wf) (he : ∀ r p, encode (f r p) = b :: encModrm r.bits (.mem p)) :
    RoundTrips [b] 5 bs (formGvM b f bs) :=
  .modrm fun q m _ hm => match m with
    | .reg _ => .ok (hb q) rfl
    | .mem p => .ok ((hw _ p).trans hm) (by simp [memOrInvalid, he])

theorem groupEbIb_roundTrips {f : BitVec 3 → Rm Reg8 → Byte → Instr} (hw : ∀ q m i, (f q m i).wf = m.wf)
    (he : ∀ q m i, encode (f q m i) = b :: (encModrm q (m.map Reg8.bits) ++ [i])) :
    RoundTrips [b] 5 bs (groupEbIb f bs) :=
  .modrm fun _ _ _ hm => .byte fun _ _ => .ok (by simpa [hw] using hm) (by simp [he])

theorem groupEvIb_roundTrips {f : BitVec 3 → Rm Reg16 → Byte → Instr} (hw : ∀ q m i, (f q m i).wf = m.wf)
    (he : ∀ q m i, encode (f q m i) = b :: (encModrm q (m.map Reg16.bits) ++ [i])) :
    RoundTrips [b] 5 bs (groupEvIb f bs) :=
  .modrm fun _ _ _ hm => .byte fun _ _ => .ok (by simpa [hw] using hm) (by simp [he])

theorem groupEvIv_roundTrips {f : BitVec 3 → Rm Reg16 → Word → Instr} (hw : ∀ q m i, (f q m i).wf = m.wf)
    (he : ∀ q m i, encode (f q m i) = b :: (encModrm q (m.map Reg16.bits) ++ leBytes i)) :
    RoundTrips [b] 5 bs (groupEvIv f bs) :=
  .modrm fun _ _ _ hm => .word fun _ _ => .ok (by simpa [hw] using hm) (by simp [he])

end

/-! ## The group opcodes, at each value of the reg field -/

theorem bitVec3_cases (q : BitVec 3) :
    q = 0#3 ∨ q = 1#3 ∨ q = 2#3 ∨ q = 3#3 ∨ q = 4#3 ∨ q = 5#3 ∨ q = 6#3 ∨ q = 7#3 := by
  revert q; decide

theorem group1EbIb_spec (q : BitVec 3) (m : Rm Reg8) (i : Byte) : (group1EbIb q m i).wf = m.wf ∧
    encode (group1EbIb q m i) = 0x80#8 :: (encModrm q (m.map Reg8.bits) ++ [i]) := by
  rcases bitVec3_cases q with rfl | rfl | rfl | rfl | rfl | rfl | rfl | rfl <;> exact ⟨rfl, rfl⟩

theorem group1EvIv_spec (q : BitVec 3) (m : Rm Reg16) (i : Word) : (group1EvIv q m i).wf = m.wf ∧
    encode (group1EvIv q m i) = 0x81#8 :: (encModrm q (m.map Reg16.bits) ++ leBytes i) := by
  rcases bitVec3_cases q with rfl | rfl | rfl | rfl | rfl | rfl | rfl | rfl <;> exact ⟨rfl, rfl⟩

theorem group1EvSb_spec (q : BitVec 3) (m : Rm Reg16) (i : Byte) : (group1EvSb q m i).wf = m.wf ∧
    encode (group1EvSb q m i) = 0x83#8 :: (encModrm q (m.map Reg16.bits) ++ [i]) := by
  rcases bitVec3_cases q with rfl | rfl | rfl | rfl | rfl | rfl | rfl | rfl <;> exact ⟨rfl, rfl⟩

/-- An instruction of a group opcode, well-formed when its operand is, that is written as the opcode byte, the reg
field and the operand. -/
def WrittenAs (b : Byte) (q : BitVec 3) (m : Rm (BitVec 3)) (i : Instr) : Prop :=
  i.wf = m.wf ∧ encode i = b :: encModrm q m

namespace WrittenAs

variable {b : Byte} {q : BitVec 3} {m : Rm (BitVec 3)} {n : Nat} {rest : List Byte}

theorem eb {f : Rm Reg8 → Instr} (hw : ∀ m, (f m).wf = m.wf)
    (he : ∀ m, encode (f m) = b :: encModrm q (m.map Reg8.bits)) : WrittenAs b q m (f (m.map reg8)) :=
  ⟨by simp [hw], by simp [he]⟩

theorem ev {f : Rm Reg16 → Instr} (hw : ∀ m, (f m).wf = m.wf)
    (he : ∀ m, encode (f m) = b :: encModrm q (m.map Reg16.bits)) : WrittenAs b q m (f (m.map reg16)) :=
  ⟨by simp [hw], by simp [he]⟩

theorem invalid (h : invalidReg b q = true) : WrittenAs b q m (.invalidSub b q m) :=
  ⟨by simp [Instr.wf, h], rfl⟩

theorem mem {f : MemOp → Instr} (hb : memoryOnly b q = true) (hw : ∀ p, (f p).wf = p.wf)
    (he : ∀ p, encode (f p) = b :: encModrm q (.mem p)) : WrittenAs b q m (memOrInvalid b q m f) := by
  cases m with
  | reg n => exact ⟨hb, rfl⟩
  | mem p => exact ⟨hw p, he p⟩

theorem roundTrips {i : Instr} (h : WrittenAs b q m i) (hm : m.wf = true) :
    RoundTrips ([b] ++ encModrm q m) n rest (.ok (i, rest)) := .ok (h.1.trans hm) h.2

end WrittenAs

theorem group2Eb1_writtenAs (q : BitVec 3) (m : Rm (BitVec 3)) :
    WrittenAs 0xD0#8 q m (group2Eb1 0xD0#8 q m) := by
  rcases bitVec3_cases q with rfl | rfl | rfl | rfl | rfl | rfl | rfl | rfl
  case inr.inr.inr.inr.inr.inr.inl => exact .invalid rfl
  all_goals exact .eb (fun _ => rfl) (fun _ => rfl)

theorem group2Ev1_writtenAs (q : BitVec 3) (m : Rm (BitVec 3)) :
    WrittenAs 0xD1#8 q m (group2Ev1 0xD1#8 q m) := by
  rcases bitVec3_cases q with rfl | rfl | rfl | rfl | rfl | rfl | rfl | rfl
  case inr.inr.inr.inr.inr.inr.inl => exact .invalid rfl
  all_goals exact .ev (fun _ => rfl) (fun _ => rfl)

theorem group2EbCl_writtenAs (q : BitVec 3) (m : Rm (BitVec 3)) :
    WrittenAs 0xD2#8 q m (group2EbCl 0xD2#8 q m) := by
  rcases bitVec3_cases q with rfl | rfl | rfl | rfl | rfl | rfl | rfl | rfl
  case inr.inr.inr.inr.inr.inr.inl => exact .invalid rfl
  all_goals exact .eb (fun _ => rfl) (fun _ => rfl)

theorem group2EvCl_writtenAs (q : BitVec 3) (m : Rm (BitVec 3)) :
    WrittenAs 0xD3#8 q m (group2EvCl 0xD3#8 q m) := by
  rcases bitVec3_cases q with rfl | rfl | rfl | rfl | rfl | rfl | rfl | rfl
  case inr.inr.inr.inr.inr.inr.inl => exact .invalid rfl
  all_goals exact .ev (fun _ => rfl) (fun _ => rfl)

theorem group4_writtenAs (q : BitVec 3) (m : Rm (BitVec 3)) : WrittenAs 0xFE#8 q m (group4 q m) := by
  rcases bitVec3_cases q with rfl | rfl | rfl | rfl | rfl | rfl | rfl | rfl
  case inl | inr.inl => exact .eb (fun _ => rfl) (fun _ => rfl)
  all_goals exact .invalid rfl

section
variable {bs : List Byte}

theorem groupRm_roundTrips {b : Byte} {f : BitVec 3 → Rm (BitVec 3) → Instr} (h : ∀ q m, WrittenAs b q m (f q m)) :
    RoundTrips [b] 5 bs (groupRm f bs) := .modrm fun q m _ hm => (h q m).roundTrips hm

theorem group3Eb_roundTrips : RoundTrips [0xF6#8] 5 bs (group3Eb bs) := by
  refine .modrm fun q m rest hm => ?_
  rcases bitVec3_cases q with rfl | rfl | rfl | rfl | rfl | rfl | rfl | rfl
  case inl => exact .byte fun i _ => .ok ((m.wf_map reg8).trans hm) (by simp [encode])
  case inr.inl => exact (WrittenAs.invalid rfl).roundTrips hm
  all_goals exact (WrittenAs.eb (fun _ => rfl) (fun _ => rfl)).roundTrips hm

theorem group3Ev_roundTrips : RoundTrips [0xF7#8] 5 bs (group3Ev bs) := by
  refine .modrm fun q m rest hm => ?_
  rcases bitVec3_cases q with rfl | rfl | rfl | rfl | rfl | rfl | rfl | rfl
  case inl => exact .word fun i _ => .ok ((m.wf_map reg16).trans hm) (by simp [encode])
  case inr.inl => exact (WrittenAs.invalid rfl).roundTrips hm
  all_goals exact (WrittenAs.ev (fun _ => rfl) (fun _ => rfl)).roundTrips hm

theorem groupC6_roundTrips : RoundTrips [0xC6#8] 5 bs (groupC6 bs) := by
  refine .modrm fun q m rest hm => ?_
  rcases bitVec3_cases q with rfl | rfl | rfl | rfl | rfl | rfl | rfl | rfl
  case inl => exact .byte fun i _ => .ok ((m.wf_map reg8).trans hm) (by simp [encode])
  all_goals exact (WrittenAs.invalid rfl).roundTrips hm

theorem groupC7_roundTrips : RoundTrips [0xC7#8] 5 bs (groupC7 bs) := by
  refine .modrm fun q m rest hm => ?_
  rcases bitVec3_cases q with rfl | rfl | rfl | rfl | rfl | rfl | rfl | rfl
  case inl => exact .word fun i _ => .ok ((m.wf_map reg16).trans hm) (by simp [encode])
  all_goals exact (WrittenAs.invalid rfl).roundTrips hm

theorem group8F_roundTrips : RoundTrips [0x8F#8] 5 bs (group8F bs) := by
  refine .modrm fun q m rest hm => ?_
  rcases bitVec3_cases q with rfl | rfl | rfl | rfl | rfl | rfl | rfl | rfl
  case inl => exact (WrittenAs.ev (fun _ => rfl) (fun _ => rfl)).roundTrips hm
  all_goals exact (WrittenAs.invalid rfl).roundTrips hm

theorem group5_roundTrips : RoundTrips [0xFF#8] 5 bs (group5 bs) := by
  refine .modrm fun q m rest hm => ?_
  rcases bitVec3_cases q with rfl | rfl | rfl | rfl | rfl | rfl | rfl | rfl
  case inr.inr.inr.inl | inr.inr.inr.inr.inr.inl =>
    exact (WrittenAs.mem rfl (fun _ => rfl) (fun _ => rfl)).roundTrips hm
  case inr.inr.inr.inr.inr.inr.inr => exact (WrittenAs.invalid rfl).roundTrips hm
  all_goals exact (WrittenAs.ev (fun _ => rfl) (fun _ => rfl)).roundTrips hm

theorem formEwSw_roundTrips : RoundTrips [0x8C#8] 5 bs (formEwSw bs) := by
  refine .modrm fun q m rest hm => ?_
  rcases bitVec3_cases q with rfl | rfl | rfl | rfl | rfl | rfl | rfl | rfl
  case inl => exact (WrittenAs.ev (f := (.movEwSw · .es)) (fun _ => rfl) (fun _ => rfl)).roundTrips hm
  case inr.inl => exact (WrittenAs.ev (f := (.movEwSw · .cs)) (fun _ => rfl) (fun _ => rfl)).roundTrips hm
  case inr.inr.inl => exact (WrittenAs.ev (f := (.movEwSw · .ss)) (fun _ => rfl) (fun _ => rfl)).roundTrips hm
  case inr.inr.inr.inl => exact (WrittenAs.ev (f := (.movEwSw · .ds)) (fun _ => rfl) (fun _ => rfl)).roundTrips hm
  all_goals exact (WrittenAs.invalid rfl).roundTrips hm

/-- CS cannot be loaded (30_encoding.md R151). -/
theorem formSwEw_roundTrips : RoundTrips [0x8E#8] 5 bs (formSwEw bs) := by
  refine .modrm fun q m rest hm => ?_
  rcases bitVec3_cases q with rfl | rfl | rfl | rfl | rfl | rfl | rfl | rfl
  case inl => exact (WrittenAs.ev (f := .movSwEw .es) (fun _ => rfl) (fun _ => rfl)).roundTrips hm
  case inr.inr.inl => exact (WrittenAs.ev (f := .movSwEw .ss) (fun _ => rfl) (fun _ => rfl)).roundTrips hm
  case inr.inr.inr.inl => exact (WrittenAs.ev (f := .movSwEw .ds) (fun _ => rfl) (fun _ => rfl)).roundTrips hm
  all_goals exact (WrittenAs.invalid rfl).roundTrips hm

theorem formEsc_roundTrips {b : Byte} {k : BitVec 3} (h : opReg 0xD8#8 k = b) :
    RoundTrips [b] 5 bs (formEsc k bs) :=
  .modrm fun q m _ hm => .ok ((m.wf_map reg16).trans hm) (by simp [encode, h])

theorem fixed_roundTrips {b : Byte} {i : Instr} (hw : i.wf = true) (he : encode i = [b]) :
    RoundTrips [b] 5 bs (.ok (i, bs)) := .ok hw he

end

/-! ## The opcode map, a row of sixteen at a time -/

theorem decodeRow0_roundTrips (lo : Nat) (h : lo < 16) (bs : List Byte) :
    RoundTrips [BitVec.ofNat 8 (0x00 + lo)] 5 bs (decodeRow0 lo (BitVec.ofNat 8 (0x00 + lo)) bs) :=
  match lo, h with
  | 0x0, _ | 0x8, _ => formEbGb_roundTrips (fun _ _ => rfl) fun _ _ => rfl
  | 0x1, _ | 0x9, _ => formEvGv_roundTrips (fun _ _ => rfl) fun _ _ => rfl
  | 0x2, _ | 0xA, _ => formGbEb_roundTrips (fun _ _ => rfl) fun _ _ => rfl
  | 0x3, _ | 0xB, _ => formGvEv_roundTrips (fun _ _ => rfl) fun _ _ => rfl
  | 0x4, _ | 0xC, _ => formIb_roundTrips (fun _ => rfl) fun _ => rfl
  | 0x5, _ | 0xD, _ => formIv_roundTrips (fun _ => rfl) fun _ => rfl
  | 0x6, _ | 0x7, _ | 0xE, _ | 0xF, _ => fixed_roundTrips rfl rfl
  | _ + 16, h => absurd h (by omega)

theorem decodeRow1_roundTrips (lo : Nat) (h : lo < 16) (bs : List Byte) :
    RoundTrips [BitVec.ofNat 8 (0x10 + lo)] 5 bs (decodeRow1 lo bs) :=
  match lo, h with
  | 0x0, _ | 0x8, _ => formEbGb_roundTrips (fun _ _ => rfl) fun _ _ => rfl
  | 0x1, _ | 0x9, _ => formEvGv_roundTrips (fun _ _ => rfl) fun _ _ => rfl
  | 0x2, _ | 0xA, _ => formGbEb_roundTrips (fun _ _ => rfl) fun _ _ => rfl
  | 0x3, _ | 0xB, _ => formGvEv_roundTrips (fun _ _ => rfl) fun _ _ => rfl
  | 0x4, _ | 0xC, _ => formIb_roundTrips (fun _ => rfl) fun _ => rfl
  | 0x5, _ | 0xD, _ => formIv_roundTrips (fun _ => rfl) fun _ => rfl
  | 0x6, _ | 0x7, _ | 0xE, _ | 0xF, _ => fixed_roundTrips rfl rfl
  | _ + 16, h => absurd h (by omega)

theorem decodeRow2_roundTrips (lo : Nat) (h : lo < 16) (bs : List Byte) :
    RoundTrips [BitVec.ofNat 8 (0x20 + lo)] 5 bs (decodeRow2 lo bs) :=
  match lo, h with
  | 0x0, _ | 0x8, _ => formEbGb_roundTrips (fun _ _ => rfl) fun _ _ => rfl
  | 0x1, _ | 0x9, _ => formEvGv_roundTrips (fun _ _ => rfl) fun _ _ => rfl
  | 0x2, _ | 0xA, _ => formGbEb_roundTrips (fun _ _ => rfl) fun _ _ => rfl
  | 0x3, _ | 0xB, _ => formGvEv_roundTrips (fun _ _ => rfl) fun _ _ => rfl
  | 0x4, _ | 0xC, _ => formIb_roundTrips (fun _ => rfl) fun _ => rfl
  | 0x5, _ | 0xD, _ => formIv_roundTrips (fun _ => rfl) fun _ => rfl
  | 0x6, _ | 0x7, _ | 0xE, _ | 0xF, _ => fixed_roundTrips rfl rfl
  | _ + 16, h => absurd h (by omega)

theorem decodeRow3_roundTrips (lo : Nat) (h : lo < 16) (bs : List Byte) :
    RoundTrips [BitVec.ofNat 8 (0x30 + lo)] 5 bs (decodeRow3 lo bs) :=
  match lo, h with
  | 0x0, _ | 0x8, _ => formEbGb_roundTrips (fun _ _ => rfl) fun _ _ => rfl
  | 0x1, _ | 0x9, _ => formEvGv_roundTrips (fun _ _ => rfl) fun _ _ => rfl
  | 0x2, _ | 0xA, _ => formGbEb_roundTrips (fun _ _ => rfl) fun _ _ => rfl
  | 0x3, _ | 0xB, _ => formGvEv_roundTrips (fun _ _ => rfl) fun _ _ => rfl
  | 0x4, _ | 0xC, _ => formIb_roundTrips (fun _ => rfl) fun _ => rfl
  | 0x5, _ | 0xD, _ => formIv_roundTrips (fun _ => rfl) fun _ => rfl
  | 0x6, _ | 0x7, _ | 0xE, _ | 0xF, _ => fixed_roundTrips rfl rfl
  | _ + 16, h => absurd h (by omega)

theorem decodeRow4_roundTrips (lo : Nat) (h : lo < 16) (bs : List Byte) :
    RoundTrips [BitVec.ofNat 8 (0x40 + lo)] 5 bs (decodeRow4 lo bs) :=
  match lo, h with
  | 0x0, _ | 0x1, _ | 0x2, _ | 0x3, _ | 0x4, _ | 0x5, _ | 0x6, _ | 0x7, _ | 0x8, _ | 0x9, _ | 0xA, _ 
    | 0xB, _ | 0xC, _ | 0xD, _ | 0xE, _ | 0xF, _ => fixed_roundTrips rfl rfl
  | _ + 16, h => absurd h (by omega)

theorem decodeRow5_roundTrips (lo : Nat) (h : lo < 16) (bs : List Byte) :
    RoundTrips [BitVec.ofNat 8 (0x50 + lo)] 5 bs (decodeRow5 lo bs) :=
  match lo, h with
  | 0x0, _ | 0x1, _ | 0x2, _ | 0x3, _ | 0x4, _ | 0x5, _ | 0x6, _ | 0x7, _ | 0x8, _ | 0x9, _ | 0xA, _ 
    | 0xB, _ | 0xC, _ | 0xD, _ | 0xE, _ | 0xF, _ => fixed_roundTrips rfl rfl
  | _ + 16, h => absurd h (by omega)

theorem decodeRow7_roundTrips (lo : Nat) (h : lo < 16) (bs : List Byte) :
    RoundTrips [BitVec.ofNat 8 (0x70 + lo)] 5 bs (decodeRow7 lo bs) :=
  match lo, h with
  | 0x0, _ | 0x1, _ | 0x2, _ | 0x3, _ | 0x4, _ | 0x5, _ | 0x6, _ | 0x7, _ | 0x8, _ | 0x9, _ | 0xA, _ 
    | 0xB, _ | 0xC, _ | 0xD, _ | 0xE, _ | 0xF, _ => formIb_roundTrips (fun _ => rfl) fun _ => rfl
  | _ + 16, h => absurd h (by omega)

theorem decodeRow8_roundTrips (lo : Nat) (h : lo < 16) (bs : List Byte) :
    RoundTrips [BitVec.ofNat 8 (0x80 + lo)] 5 bs (decodeRow8 lo (BitVec.ofNat 8 (0x80 + lo)) bs) :=
  match lo, h with
  | 0x0, _ =>
    groupEbIb_roundTrips (fun q m i => (group1EbIb_spec q m i).1) fun q m i => (group1EbIb_spec q m i).2
  | 0x1, _ =>
    groupEvIv_roundTrips (fun q m i => (group1EvIv_spec q m i).1) fun q m i => (group1EvIv_spec q m i).2
  | 0x2, _ => fixed_roundTrips rfl rfl
  | 0x3, _ =>
    groupEvIb_roundTrips (fun q m i => (group1EvSb_spec q m i).1) fun q m i => (group1EvSb_spec q m i).2
  | 0x4, _ | 0x6, _ | 0x8, _ => formEbGb_roundTrips (fun _ _ => rfl) fun _ _ => rfl
  | 0x5, _ | 0x7, _ | 0x9, _ => formEvGv_roundTrips (fun _ _ => rfl) fun _ _ => rfl
  | 0xA, _ => formGbEb_roundTrips (fun _ _ => rfl) fun _ _ => rfl
  | 0xB, _ => formGvEv_roundTrips (fun _ _ => rfl) fun _ _ => rfl
  | 0xC, _ => formEwSw_roundTrips
  | 0xD, _ => formGvM_roundTrips (fun _ => rfl) (fun _ _ => rfl) fun _ _ => rfl
  | 0xE, _ => formSwEw_roundTrips
  | 0xF, _ => group8F_roundTrips
  | _ + 16, h => absurd h (by omega)

theorem decodeRow9_roundTrips (lo : Nat) (h : lo < 16) (bs : List Byte) :
    RoundTrips [BitVec.ofNat 8 (0x90 + lo)] 5 bs (decodeRow9 lo bs) :=
  match lo, h with
  | 0x0, _ | 0x1, _ | 0x2, _ | 0x3, _ | 0x4, _ | 0x5, _ | 0x6, _ | 0x7, _ | 0x8, _ | 0x9, _ | 0xB, _ 
    | 0xC, _ | 0xD, _ | 0xE, _ | 0xF, _ => fixed_roundTrips rfl rfl
  | 0xA, _ => formPtr_roundTrips (fun _ _ => rfl) fun _ _ => rfl
  | _ + 16, h => absurd h (by omega)

theorem decodeRowA_roundTrips (lo : Nat) (h : lo < 16) (bs : List Byte) :
    RoundTrips [BitVec.ofNat 8 (0xA0 + lo)] 5 bs (decodeRowA lo bs) :=
  match lo, h with
  | 0x0, _ | 0x1, _ | 0x2, _ | 0x3, _ | 0x9, _ => formIv_roundTrips (fun _ => rfl) fun _ => rfl
  | 0x4, _ | 0x5, _ | 0x6, _ | 0x7, _ | 0xA, _ | 0xB, _ | 0xC, _ | 0xD, _ | 0xE, _ | 0xF, _ =>
    fixed_roundTrips rfl rfl
  | 0x8, _ => formIb_roundTrips (fun _ => rfl) fun _ => rfl
  | _ + 16, h => absurd h (by omega)

theorem decodeRowB_roundTrips (lo : Nat) (h : lo < 16) (bs : List Byte) :
    RoundTrips [BitVec.ofNat 8 (0xB0 + lo)] 5 bs (decodeRowB lo bs) :=
  match lo, h with
  | 0x0, _ | 0x1, _ | 0x2, _ | 0x3, _ | 0x4, _ | 0x5, _ | 0x6, _ | 0x7, _ =>
    formIb_roundTrips (fun _ => rfl) fun _ => rfl
  | 0x8, _ | 0x9, _ | 0xA, _ | 0xB, _ | 0xC, _ | 0xD, _ | 0xE, _ | 0xF, _ =>
    formIv_roundTrips (fun _ => rfl) fun _ => rfl
  | _ + 16, h => absurd h (by omega)

theorem decodeRowC_roundTrips (lo : Nat) (h : lo < 16) (bs : List Byte) :
    RoundTrips [BitVec.ofNat 8 (0xC0 + lo)] 5 bs (decodeRowC lo (BitVec.ofNat 8 (0xC0 + lo)) bs) :=
  match lo, h with
  | 0x0, _ | 0x1, _ | 0x3, _ | 0x8, _ | 0x9, _ | 0xB, _ | 0xC, _ | 0xE, _ | 0xF, _ => fixed_roundTrips rfl rfl
  | 0x2, _ | 0xA, _ => formIv_roundTrips (fun _ => rfl) fun _ => rfl
  | 0x4, _ | 0x5, _ => formGvM_roundTrips (fun _ => rfl) (fun _ _ => rfl) fun _ _ => rfl
  | 0x6, _ => groupC6_roundTrips
  | 0x7, _ => groupC7_roundTrips
  | 0xD, _ => formIb_roundTrips (fun _ => rfl) fun _ => rfl
  | _ + 16, h => absurd h (by omega)

theorem decodeRowD_roundTrips (lo : Nat) (h : lo < 16) (bs : List Byte) :
    RoundTrips [BitVec.ofNat 8 (0xD0 + lo)] 5 bs (decodeRowD lo (BitVec.ofNat 8 (0xD0 + lo)) bs) :=
  match lo, h with
  | 0x0, _ => groupRm_roundTrips group2Eb1_writtenAs
  | 0x1, _ => groupRm_roundTrips group2Ev1_writtenAs
  | 0x2, _ => groupRm_roundTrips group2EbCl_writtenAs
  | 0x3, _ => groupRm_roundTrips group2EvCl_writtenAs
  | 0x4, _ | 0x5, _ => formIb_roundTrips (fun _ => rfl) fun _ => rfl
  | 0x6, _ | 0x7, _ => fixed_roundTrips rfl rfl
  | 0x8, _ | 0x9, _ | 0xA, _ | 0xB, _ | 0xC, _ | 0xD, _ | 0xE, _ | 0xF, _ => formEsc_roundTrips rfl
  | _ + 16, h => absurd h (by omega)

theorem decodeRowE_roundTrips (lo : Nat) (h : lo < 16) (bs : List Byte) :
    RoundTrips [BitVec.ofNat 8 (0xE0 + lo)] 5 bs (decodeRowE lo (BitVec.ofNat 8 (0xE0 + lo)) bs) :=
  match lo, h with
  | 0x0, _ | 0x1, _ | 0x2, _ | 0x3, _ | 0x4, _ | 0x6, _ | 0xB, _ =>
    formIb_roundTrips (fun _ => rfl) fun _ => rfl
  | 0x5, _ | 0x7, _ | 0xC, _ | 0xD, _ | 0xE, _ | 0xF, _ => fixed_roundTrips rfl rfl
  | 0x8, _ | 0x9, _ => formIv_roundTrips (fun _ => rfl) fun _ => rfl
  | 0xA, _ => formPtr_roundTrips (fun _ _ => rfl) fun _ _ => rfl
  | _ + 16, h => absurd h (by omega)

theorem decodeRowF_roundTrips (lo : Nat) (h : lo < 16) (bs : List Byte) :
    RoundTrips [BitVec.ofNat 8 (0xF0 + lo)] 5 bs (decodeRowF lo (BitVec.ofNat 8 (0xF0 + lo)) bs) :=
  match lo, h with
  | 0x0, _ | 0x1, _ | 0x2, _ | 0x3, _ | 0x4, _ | 0x5, _ | 0x8, _ | 0x9, _ | 0xA, _ | 0xB, _ | 0xC, _
    | 0xD, _ => fixed_roundTrips rfl rfl
  | 0x6, _ => group3Eb_roundTrips
  | 0x7, _ => group3Ev_roundTrips
  | 0xE, _ => groupRm_roundTrips group4_writtenAs
  | 0xF, _ => group5_roundTrips
  | _ + 16, h => absurd h (by omega)

/-- An opcode byte is its row and its place in the row. -/
theorem RoundTrips.row {n : Nat} {b : Byte} {bs : List Byte} {row : Nat → Byte → List Byte → Parsed}
    (hb : b.toNat / 16 = n) (h : ∀ lo, lo < 16 → ∀ bs,
      RoundTrips [BitVec.ofNat 8 (16 * n + lo)] 5 bs (row lo (BitVec.ofNat 8 (16 * n + lo)) bs)) :
    RoundTrips [b] 5 bs (row (b.toNat % 16) b bs) := by
  have e : BitVec.ofNat 8 (16 * n + b.toNat % 16) = b := by
    apply BitVec.eq_of_toNat_eq
    rw [BitVec.toNat_ofNat, ← hb, Nat.div_add_mod]
    exact Nat.mod_eq_of_lt b.isLt
  simpa only [e] using h (b.toNat % 16) (Nat.mod_lt _ (by decide)) bs

/-- Every opcode byte reads back what it was written from, and six bytes are enough (30_encoding.md R123). -/
theorem decode_roundTrips (b : Byte) (bs : List Byte) : RoundTrips [b] 5 bs (decode (b :: bs)) := by
  have high : b.toNat / 16 < 16 := by have := b.isLt; omega
  simp only [decode]
  split
  · next hb => exact .row (row := decodeRow0) hb decodeRow0_roundTrips
  · next hb => exact .row (row := fun lo _ bs => decodeRow1 lo bs) hb decodeRow1_roundTrips
  · next hb => exact .row (row := fun lo _ bs => decodeRow2 lo bs) hb decodeRow2_roundTrips
  · next hb => exact .row (row := fun lo _ bs => decodeRow3 lo bs) hb decodeRow3_roundTrips
  · next hb => exact .row (row := fun lo _ bs => decodeRow4 lo bs) hb decodeRow4_roundTrips
  · next hb => exact .row (row := fun lo _ bs => decodeRow5 lo bs) hb decodeRow5_roundTrips
  · next hb => exact fixed_roundTrips (by simp [Instr.wf, invalidByte, hb]) rfl
  · next hb => exact .row (row := fun lo _ bs => decodeRow7 lo bs) hb decodeRow7_roundTrips
  · next hb => exact .row (row := decodeRow8) hb decodeRow8_roundTrips
  · next hb => exact .row (row := fun lo _ bs => decodeRow9 lo bs) hb decodeRow9_roundTrips
  · next hb => exact .row (row := fun lo _ bs => decodeRowA lo bs) hb decodeRowA_roundTrips
  · next hb => exact .row (row := fun lo _ bs => decodeRowB lo bs) hb decodeRowB_roundTrips
  · next hb => exact .row (row := decodeRowC) hb decodeRowC_roundTrips
  · next hb => exact .row (row := decodeRowD) hb decodeRowD_roundTrips
  · next hb => exact .row (row := decodeRowE) hb decodeRowE_roundTrips
  · exact .row (row := decodeRowF) (n := 15) (by simp only [imp_false] at *; omega) decodeRowF_roundTrips

/-- Settles O3: the round trip of the opcode byte's row. -/
theorem encodeOfDecode : Obligations.EncodeOfDecode := by
  unfold Obligations.EncodeOfDecode
  intro bs i rest h
  match bs, h with
  | b :: bs, h => exact (decode_roundTrips b bs).1 i rest h

/-! ## What the encoder writes is what the decoder reads -/

section
variable {p : List Byte → Parsed} {k : BitVec 3 → Rm (BitVec 3) → List Byte → Parsed} {q : BitVec 3}
variable {rest : List Byte} (hp : ∀ bs, p bs = withModrm bs k)
include hp

theorem parses_eb {m : Rm Reg8} {f : Rm Reg8 → Instr} (hk : ∀ m bs, k q m bs = .ok (f (m.map reg8), bs))
    (h : m.wf = true) : p (encModrm q (m.map Reg8.bits) ++ rest) = .ok (f m, rest) := by
  rw [hp, withModrm_encModrm _ _ _ _ (by simpa using h), hk, Rm.map_reg8_bits]

theorem parses_ev {m : Rm Reg16} {f : Rm Reg16 → Instr} (hk : ∀ m bs, k q m bs = .ok (f (m.map reg16), bs))
    (h : m.wf = true) : p (encModrm q (m.map Reg16.bits) ++ rest) = .ok (f m, rest) := by
  rw [hp, withModrm_encModrm _ _ _ _ (by simpa using h), hk, Rm.map_reg16_bits]

theorem parses_ebIb {m : Rm Reg8} {i : Byte} {f : Rm Reg8 → Byte → Instr}
    (hk : ∀ m bs, k q m bs = withByte bs fun i rest => .ok (f (m.map reg8) i, rest)) (h : m.wf = true) :
    p (encModrm q (m.map Reg8.bits) ++ [i] ++ rest) = .ok (f m i, rest) := by
  rw [hp, List.append_assoc, withModrm_encModrm _ _ _ _ (by simpa using h), hk, Rm.map_reg8_bits]
  rfl

theorem parses_evIb {m : Rm Reg16} {i : Byte} {f : Rm Reg16 → Byte → Instr}
    (hk : ∀ m bs, k q m bs = withByte bs fun i rest => .ok (f (m.map reg16) i, rest)) (h : m.wf = true) :
    p (encModrm q (m.map Reg16.bits) ++ [i] ++ rest) = .ok (f m i, rest) := by
  rw [hp, List.append_assoc, withModrm_encModrm _ _ _ _ (by simpa using h), hk, Rm.map_reg16_bits]
  rfl

theorem parses_evIv {m : Rm Reg16} {i : Word} {f : Rm Reg16 → Word → Instr}
    (hk : ∀ m bs, k q m bs = withWord bs fun i rest => .ok (f (m.map reg16) i, rest)) (h : m.wf = true) :
    p (encModrm q (m.map Reg16.bits) ++ leBytes i ++ rest) = .ok (f m i, rest) := by
  rw [hp, List.append_assoc, withModrm_encModrm _ _ _ _ (by simpa using h), hk, Rm.map_reg16_bits, withWord_leBytes]

end

theorem formGvM_encModrm (b : Byte) (f : Reg16 → MemOp → Instr) (r : Reg16) (p : MemOp) (rest : List Byte)
    (h : p.wf = true) : formGvM b f (encModrm r.bits (.mem p) ++ rest) = .ok (f r p, rest) := by
  rw [formGvM, withModrm_encModrm _ (.mem p) _ _ h, reg16_bits]
  rfl

/-- The opcode bytes outside row 6 that select no instruction (30_encoding.md R149). -/
theorem decode_invalidOp {b : Byte} (h : invalidByte b = true) (rest : List Byte) :
    decode (b :: rest) = .ok (.invalidOp b, rest) := by
  simp only [invalidByte, Bool.or_eq_true, beq_iff_eq, decide_eq_true_eq, List.mem_cons, List.not_mem_nil,
    or_false] at h
  rcases h with (rfl | rfl | rfl | rfl | rfl | rfl | rfl | rfl | rfl | rfl | rfl | rfl) | row6
  case inr => simp only [decode, row6]
  all_goals rfl

theorem bitVec3_of_ne_zero : ∀ q : BitVec 3, q ≠ 0#3 →
    q = 1#3 ∨ q = 2#3 ∨ q = 3#3 ∨ q = 4#3 ∨ q = 5#3 ∨ q = 6#3 ∨ q = 7#3 := by decide

theorem bitVec3_of_two_le : ∀ q : BitVec 3, 2 ≤ q.toNat →
    q = 2#3 ∨ q = 3#3 ∨ q = 4#3 ∨ q = 5#3 ∨ q = 6#3 ∨ q = 7#3 := by decide

theorem bitVec3_of_four_le : ∀ q : BitVec 3, 4 ≤ q.toNat → q = 4#3 ∨ q = 5#3 ∨ q = 6#3 ∨ q = 7#3 := by decide

/-- The reg fields that select no instruction, an opcode at a time (30_encoding.md R150, R151). -/
theorem invalidReg_cases {b : Byte} {q : BitVec 3} (h : invalidReg b q = true) :
    (b = 0xD0#8 ∨ b = 0xD1#8 ∨ b = 0xD2#8 ∨ b = 0xD3#8) ∧ q = 6#3 ∨ (b = 0xF6#8 ∨ b = 0xF7#8) ∧ q = 1#3 ∨
    b = 0xFE#8 ∧ (q = 2#3 ∨ q = 3#3 ∨ q = 4#3 ∨ q = 5#3 ∨ q = 6#3 ∨ q = 7#3) ∨ b = 0xFF#8 ∧ q = 7#3 ∨
    (b = 0x8F#8 ∨ b = 0xC6#8 ∨ b = 0xC7#8) ∧
      (q = 1#3 ∨ q = 2#3 ∨ q = 3#3 ∨ q = 4#3 ∨ q = 5#3 ∨ q = 6#3 ∨ q = 7#3) ∨
    b = 0x8C#8 ∧ (q = 4#3 ∨ q = 5#3 ∨ q = 6#3 ∨ q = 7#3) ∨
    b = 0x8E#8 ∧ (q = 1#3 ∨ q = 4#3 ∨ q = 5#3 ∨ q = 6#3 ∨ q = 7#3) := by
  simp only [invalidReg, Bool.or_eq_true, Bool.and_eq_true, decide_eq_true_eq, beq_iff_eq, bne_iff_ne,
    List.mem_cons, List.not_mem_nil, or_false] at h
  rcases h with (((((h | h) | ⟨hb, hq⟩) | h) | ⟨hb, hq⟩) | ⟨rfl | rfl, hq⟩) | ⟨hb, hq⟩
  · exact .inl h
  · exact .inr (.inl h)
  · exact .inr (.inr (.inl ⟨hb, bitVec3_of_two_le q hq⟩))
  · exact .inr (.inr (.inr (.inl h)))
  · exact .inr (.inr (.inr (.inr (.inl ⟨hb, bitVec3_of_ne_zero q hq⟩))))
  · exact .inr (.inr (.inr (.inr (.inr (.inl ⟨rfl, bitVec3_of_four_le q hq⟩)))))
  · exact .inr (.inr (.inr (.inr (.inr (.inr ⟨rfl, .inr (bitVec3_of_four_le q hq)⟩)))))
  · exact .inr (.inr (.inr (.inr (.inr (.inr ⟨hb, .inl hq⟩)))))

/-- Where a parser answers the invalid row for a reg field, so does the decoder. -/
theorem parses_invalidSub {p : List Byte → Parsed} {k : BitVec 3 → Rm (BitVec 3) → List Byte → Parsed} {b : Byte}
    {q : BitVec 3} (hp : ∀ bs, p bs = withModrm bs k) (hk : ∀ m bs, k q m bs = .ok (.invalidSub b q m, bs))
    {m : Rm (BitVec 3)} (hm : m.wf = true) {rest : List Byte} :
    p (encModrm q m ++ rest) = .ok (.invalidSub b q m, rest) := by
  rw [hp, withModrm_encModrm _ _ _ _ hm, hk]

theorem decode_invalidSub {b : Byte} {q : BitVec 3} (h : invalidReg b q = true) {m : Rm (BitVec 3)}
    (hm : m.wf = true) (rest : List Byte) :
    decode (b :: (encModrm q m ++ rest)) = .ok (.invalidSub b q m, rest) := by
  rcases invalidReg_cases h with ⟨rfl | rfl | rfl | rfl, rfl⟩ | ⟨rfl | rfl, rfl⟩ | ⟨rfl, hq⟩ | ⟨rfl, rfl⟩ |
    ⟨rfl | rfl | rfl, hq⟩ | ⟨rfl, hq⟩ | ⟨rfl, hq⟩
  · exact parses_invalidSub (p := groupRm (group2Eb1 0xD0#8)) (fun _ => rfl) (fun _ _ => rfl) hm
  · exact parses_invalidSub (p := groupRm (group2Ev1 0xD1#8)) (fun _ => rfl) (fun _ _ => rfl) hm
  · exact parses_invalidSub (p := groupRm (group2EbCl 0xD2#8)) (fun _ => rfl) (fun _ _ => rfl) hm
  · exact parses_invalidSub (p := groupRm (group2EvCl 0xD3#8)) (fun _ => rfl) (fun _ _ => rfl) hm
  · exact parses_invalidSub (p := group3Eb) (fun _ => rfl) (fun _ _ => rfl) hm
  · exact parses_invalidSub (p := group3Ev) (fun _ => rfl) (fun _ _ => rfl) hm
  · exact parses_invalidSub (p := groupRm group4) (fun _ => rfl) (fun _ _ => by
      rcases hq with rfl | rfl | rfl | rfl | rfl | rfl <;> rfl) hm
  · exact parses_invalidSub (p := group5) (fun _ => rfl) (fun _ _ => rfl) hm
  · exact parses_invalidSub (p := group8F) (fun _ => rfl) (fun _ _ => by
      rcases hq with rfl | rfl | rfl | rfl | rfl | rfl | rfl <;> rfl) hm
  · exact parses_invalidSub (p := groupC6) (fun _ => rfl) (fun _ _ => by
      rcases hq with rfl | rfl | rfl | rfl | rfl | rfl | rfl <;> rfl) hm
  · exact parses_invalidSub (p := groupC7) (fun _ => rfl) (fun _ _ => by
      rcases hq with rfl | rfl | rfl | rfl | rfl | rfl | rfl <;> rfl) hm
  · exact parses_invalidSub (p := formEwSw) (fun _ => rfl) (fun _ _ => by
      rcases hq with rfl | rfl | rfl | rfl <;> rfl) hm
  · exact parses_invalidSub (p := formSwEw) (fun _ => rfl) (fun _ _ => by
      rcases hq with rfl | rfl | rfl | rfl | rfl <;> rfl) hm

theorem mem_memoryOnly {b : Byte} {q : BitVec 3} (h : memoryOnly b q = true) :
    b = 0x8D#8 ∨ b = 0xC4#8 ∨ b = 0xC5#8 ∨ b = 0xFF#8 ∧ (q = 3#3 ∨ q = 5#3) := by
  simpa [memoryOnly, or_assoc] using h

theorem decode_invalidForm {b : Byte} {q : BitVec 3} (h : memoryOnly b q = true) (n : BitVec 3) (rest : List Byte) :
    decode (b :: (encModrm q (.reg n) ++ rest)) = .ok (.invalidForm b q n, rest) := by
  rcases mem_memoryOnly h with rfl | rfl | rfl | ⟨rfl, rfl | rfl⟩
  case inr.inr.inr.inl | inr.inr.inr.inr =>
    exact (show _ = group5 _ from rfl).trans (withModrm_encModrm _ (.reg n) rest _ rfl)
  case inl => exact (show _ = formGvM 0x8D#8 .lea _ from rfl).trans (withModrm_encModrm _ (.reg n) rest _ rfl)
  case inr.inl => exact (show _ = formGvM 0xC4#8 .les _ from rfl).trans (withModrm_encModrm _ (.reg n) rest _ rfl)
  case inr.inr.inl => exact (show _ = formGvM 0xC5#8 .lds _ from rfl).trans (withModrm_encModrm _ (.reg n) rest _ rfl)

/-- Settles O2: the opcode byte selects the form the instruction was written with, and each form reads back its
operands. -/
theorem decodeOfEncode : Obligations.DecodeOfEncode := by
  unfold Obligations.DecodeOfEncode
  intro i rest h
  cases i
  case addEbGb m r | orEbGb m r | adcEbGb m r | sbbEbGb m r | andEbGb m r | subEbGb m r | xorEbGb m r
    | cmpEbGb m r | testEbGb m r | movEbGb m r | xchgEbGb m r =>
    exact formEbGb_encModrm _ m r rest h
  case addEvGv m r | orEvGv m r | adcEvGv m r | sbbEvGv m r | andEvGv m r | subEvGv m r | xorEvGv m r
    | cmpEvGv m r | testEvGv m r | movEvGv m r | xchgEvGv m r =>
    exact formEvGv_encModrm _ m r rest h
  case addGbEb r m | orGbEb r m | adcGbEb r m | sbbGbEb r m | andGbEb r m | subGbEb r m | xorGbEb r m
    | cmpGbEb r m | movGbEb r m =>
    exact formGbEb_encModrm _ r m rest h
  case addGvEv r m | orGvEv r m | adcGvEv r m | sbbGvEv r m | andGvEv r m | subGvEv r m | xorGvEv r m
    | cmpGvEv r m | movGvEv r m =>
    exact formGvEv_encModrm _ r m rest h
  case addAxIv i | orAxIv i | adcAxIv i | sbbAxIv i | andAxIv i | subAxIv i | xorAxIv i | cmpAxIv i
    | testAxIv i | movAlOb a | movAxOv a | movObAl a | movOvAx a | jmpNear d | callNear d | retIw n
    | retfIw n =>
    exact formIv_leBytes _ _ rest
  case addEbIb m i | orEbIb m i | adcEbIb m i | sbbEbIb m i | andEbIb m i | subEbIb m i | xorEbIb m i
    | cmpEbIb m i =>
    exact parses_ebIb (p := groupEbIb group1EbIb) (fun _ => rfl) (fun _ _ => by rfl) h
  case addEvIv m i | orEvIv m i | adcEvIv m i | sbbEvIv m i | andEvIv m i | subEvIv m i | xorEvIv m i
    | cmpEvIv m i =>
    exact parses_evIv (p := groupEvIv group1EvIv) (fun _ => rfl) (fun _ _ => by rfl) h
  case addEvSb m i | orEvSb m i | adcEvSb m i | sbbEvSb m i | andEvSb m i | subEvSb m i | xorEvSb m i
    | cmpEvSb m i =>
    exact parses_evIb (p := groupEvIb group1EvSb) (fun _ => rfl) (fun _ _ => by rfl) h
  case testEbIb m i =>
    exact parses_ebIb (p := group3Eb) (fun _ => rfl) (fun _ _ => by rfl) h
  case testEvIv m i =>
    exact parses_evIv (p := group3Ev) (fun _ => rfl) (fun _ _ => by rfl) h
  case notEb m | negEb m | mulEb m | imulEb m | divEb m | idivEb m =>
    exact parses_eb (p := group3Eb) (fun _ => rfl) (fun _ _ => by rfl) h
  case notEv m | negEv m | mulEv m | imulEv m | divEv m | idivEv m =>
    exact parses_ev (p := group3Ev) (fun _ => rfl) (fun _ _ => by rfl) h
  case incEb m | decEb m =>
    exact parses_eb (p := groupRm group4) (fun _ => rfl) (fun _ _ => by rfl) h
  case incEv m | decEv m | jmpEv m | callEv m | pushEv m =>
    exact parses_ev (p := group5) (fun _ => rfl) (fun _ _ => by rfl) h
  case incR16 r | decR16 r | movR8Ib r i | pushR16 r | popR16 r =>
    cases r <;> rfl
  case movEbIb m i =>
    exact parses_ebIb (p := groupC6) (fun _ => rfl) (fun _ _ => by rfl) h
  case movEvIv m i =>
    exact parses_evIv (p := groupC7) (fun _ => rfl) (fun _ _ => by rfl) h
  case movR16Iv r i =>
    cases r <;> exact formIv_leBytes _ _ rest
  case movSwEw g m =>
    obtain ⟨hg, hm⟩ := Bool.and_eq_true_iff.mp h
    cases g
    case cs => exact absurd hg (by decide)
    all_goals exact parses_ev (p := formSwEw) (fun _ => rfl) (fun _ _ => by rfl) hm
  case movEwSw m g =>
    cases g <;> exact parses_ev (p := formEwSw) (f := (.movEwSw · _)) (fun _ => rfl) (fun _ _ => by rfl) h
  case xchgAxR16 r =>
    cases r
    case ax => exact absurd h (by decide)
    all_goals rfl
  case lea r p | lds r p | les r p =>
    exact formGvM_encModrm _ _ r p rest h
  case jmpMp p | callMp p =>
    exact (show _ = group5 _ from rfl).trans (withModrm_encModrm _ (.mem p) rest _ h)
  case jmpFar off sg | callFar off sg =>
    exact formPtr_leBytes _ off sg rest
  case rolEb1 m | rorEb1 m | rclEb1 m | rcrEb1 m | shlEb1 m | shrEb1 m | sarEb1 m =>
    exact parses_eb (p := groupRm (group2Eb1 0xD0#8)) (fun _ => rfl) (fun _ _ => by rfl) h
  case rolEv1 m | rorEv1 m | rclEv1 m | rcrEv1 m | shlEv1 m | shrEv1 m | sarEv1 m =>
    exact parses_ev (p := groupRm (group2Ev1 0xD1#8)) (fun _ => rfl) (fun _ _ => by rfl) h
  case rolEbCl m | rorEbCl m | rclEbCl m | rcrEbCl m | shlEbCl m | shrEbCl m | sarEbCl m =>
    exact parses_eb (p := groupRm (group2EbCl 0xD2#8)) (fun _ => rfl) (fun _ _ => by rfl) h
  case rolEvCl m | rorEvCl m | rclEvCl m | rcrEvCl m | shlEvCl m | shrEvCl m | sarEvCl m =>
    exact parses_ev (p := groupRm (group2EvCl 0xD3#8)) (fun _ => rfl) (fun _ _ => by rfl) h
  case pushSreg g =>
    cases g <;> rfl
  case popSreg g =>
    cases g
    case cs => exact absurd h (by decide)
    all_goals rfl
  case popEv m =>
    exact parses_ev (p := group8F) (fun _ => rfl) (fun _ _ => by rfl) h
  case esc k q m =>
    rcases bitVec3_cases k with rfl | rfl | rfl | rfl | rfl | rfl | rfl | rfl <;>
      exact parses_ev (p := formEsc _) (fun _ => rfl) (fun _ _ => by rfl) h
  case invalidOp b =>
    exact decode_invalidOp h rest
  case invalidSub b q m =>
    obtain ⟨hq, hm⟩ := Bool.and_eq_true_iff.mp h
    exact decode_invalidSub hq hm rest
  case invalidForm b q n =>
    exact decode_invalidForm h n rest
  all_goals rfl

/-- Every encoding starts with an opcode byte. -/
theorem encode_ne_nil (i : Instr) : encode i ≠ [] := by
  cases i <;> exact List.cons_ne_nil _ _

/-- Settles O4: five bytes after the opcode are enough for every row, and the opcode itself is consumed. -/
theorem sixBytesAlwaysDecode : Obligations.SixBytesAlwaysDecode := by
  unfold Obligations.SixBytesAlwaysDecode
  intro bs hl
  match bs, hl with
  | b :: bs, hl =>
    obtain ⟨⟨i, rest⟩, h⟩ := (decode_roundTrips b bs).2 (by simpa using hl.ge)
    have used : (encode i ++ rest).length = 6 := by rw [((decode_roundTrips b bs).1 i rest h).2]; exact hl
    have opcode := List.length_pos_iff.mpr (encode_ne_nil i)
    rw [List.length_append] at used
    exact ⟨i, rest, h, by omega⟩

end Sys2Proof
end

section
/-! What every instruction may touch: the word registers, byte halves, bytes of memory and flags of its footprint, and
that it keeps the memory's canonical form. -/

namespace Sys2Proof.Machine
variable {rs : List Reg16} {hs : List Reg8} {ws : List PAddr} {fs : List FlagName}

/-! ## DI from one body to the next -/

theorem State.diAt_zero (s : State) (n : Word) : s.diAt n 0 = s.r16 .di := by simp [State.diAt]

/-- A body that advances DI takes it from where the body finds it to where the next one does (44_string.md R390). -/
theorem State.diAt_succ {s t : State} {n : Word} {k : Nat} (hd : t.r16 .di = s.diAt n k) (hf : t.flags = s.flags) :
    t.diAt n 1 = s.diAt n (k + 1) := by
  have e : n * BitVec.ofNat 16 (k + 1) = n * BitVec.ofNat 16 k + n := by
    rw [BitVec.ofNat_add, BitVec.mul_add, BitVec.mul_one]
  rw [State.diAt, hd, hf, State.diAt, State.diAt, e]
  cases s.flags.df <;> simp <;> ring

theorem advance_di (t : State) (n : Word) : (t.advance .di n).r16 .di = t.diAt n 1 := by
  simp [State.advance, State.diAt]

/-- A body of MOVS or STOS of `n` bytes: it stores at ES:DI, the bytes `bytes` there, advances DI, and keeps
the flags and the segment registers (44_string.md R394, R396). -/
structure StoreBody (n : Word) (bytes : PAddr → List PAddr) (rs : List Reg16) (body : State → State) : Prop where
  touches : ∀ t, Touches rs [] (bytes t.stringDest) [] t (body t)
  di : ∀ t, (body t).r16 .di = t.diAt n 1
  flags : ∀ t, (body t).flags = t.flags
  segs : ∀ t, (body t).segs = t.segs

theorem movs8_storeBody : StoreBody 1 (fun pa => [pa]) [.si, .di] State.movs8 where
  touches := movs8_touches
  di _ := (advance_di _ _).trans rfl
  flags _ := rfl
  segs _ := rfl

theorem movs16_storeBody : StoreBody 2 wordBytes [.si, .di] State.movs16 where
  touches := movs16_touches
  di _ := (advance_di _ _).trans rfl
  flags _ := rfl
  segs _ := rfl

theorem stos8_storeBody : StoreBody 1 (fun pa => [pa]) [.di] State.stos8 where
  touches := stos8_touches
  di _ := (advance_di _ _).trans rfl
  flags _ := rfl
  segs _ := rfl

theorem stos16_storeBody : StoreBody 2 wordBytes [.di] State.stos16 where
  touches := stos16_touches
  di _ := (advance_di _ _).trans rfl
  flags _ := rfl
  segs _ := rfl

/-- Every byte a storing instruction's bodies store to (44_string.md R391 to R393). -/
def State.bodyBytes (s : State) (n : Word) (bytes : PAddr → List PAddr) : List PAddr :=
  (List.range s.bodies).flatMap fun k => bytes (s.destAt n k)

/-- What holds of the state `t` the `k`-th body of a repeated store finds: only CX, the body's registers and its bytes
were written, and DI, the flags and the segment registers are as `State.destAt` takes them. -/
def State.AtBody (s : State) (n : Word) (bytes : PAddr → List PAddr) (rs : List Reg16) (k : Nat) (t : State) : Prop :=
  Touches (rs ++ s.repeatCounter) [] (s.bodyBytes n bytes) [] s t ∧
    t.r16 .di = s.diAt n k ∧ t.flags = s.flags ∧ t.segs = s.segs

/-- One body, CX counted down before it, goes from one place of the loop to the next. -/
theorem StoreBody.atBody_succ {n : Word} {bytes : PAddr → List PAddr} {body : State → State}
    (h : StoreBody n bytes rs body) {s t : State} {k : Nat} (hr : s.rep ≠ .none) (hk : k < s.bodies)
    (ht : s.AtBody n bytes rs k t) : s.AtBody n bytes rs (k + 1) (body t.counted) := by
  obtain ⟨ht, hd, hf, hg⟩ := ht
  have hc : Reg16.cx ∈ rs ++ s.repeatCounter := by simp [State.repeatCounter, hr]
  have e : t.counted.stringDest = s.destAt n k := by
    have hd' : t.counted.r16 .di = s.diAt n k := hd
    rw [State.stringDest, hd', State.sreg, show t.counted.segs = s.segs from hg]
    rfl
  refine ⟨(ht.trans (counted_touches t hc)).trans ((h.touches _).mono (by simp) (by simp) ?_ (by simp)), ?_,
    (h.flags _).trans hf, (h.segs _).trans hg⟩
  · rw [e]
    exact fun pa hpa => List.mem_flatMap.mpr ⟨k, List.mem_range.mpr hk, hpa⟩
  · rw [h.di]
    exact State.diAt_succ hd hf

/-- Where a storing instruction, repeated or not, may write (44_string.md R391 to R393). -/
theorem StoreBody.stringExec_touches {n : Word} {bytes : PAddr → List PAddr} {body : State → State}
    (h : StoreBody n bytes rs body) (s : State) :
    Touches (rs ++ s.repeatCounter) [] (s.bodyBytes n bytes) [] s (s.stringExec false body) := by
  by_cases hr : s.rep = .none
  · have e : s.destAt n 0 = s.stringDest := by rw [State.destAt, State.diAt_zero]; rfl
    rw [stringExec_once hr]
    exact (h.touches s).mono (by simp) (by simp) (by simp [State.bodyBytes, State.bodies, hr, e]) (by simp)
  · have hb : s.bodies = (s.r16 .cx).toNat := by simp [State.bodies, hr]
    have loop := stringLoop_plain_induct (I := s.AtBody n bytes rs) (fun k t hk => h.atBody_succ hr hk)
      s.bodies 0 s (Nat.zero_add _) ⟨Touches.refl s, (s.diAt_zero n).symm, rfl, rfl⟩
    rw [stringExec_repeat hr, ← hb]
    exact loop.1.trans (Touches.of_eq rfl rfl rfl)

/-- The byte forms list one byte for each body. -/
theorem StoreBody.stringExec8_touches {n : Word} {body : State → State} (h : StoreBody n (fun pa => [pa]) rs body)
    (s : State) : Touches (rs ++ s.repeatCounter) [] ((List.range s.bodies).map (s.destAt n)) [] s
      (s.stringExec false body) := by
  rw [List.map_eq_flatMap]
  exact h.stringExec_touches s

/-- What one body of an instruction that stores nothing may write, the repeated instruction may, and CX. -/
theorem stringExec_touches {c : Bool} {body : State → State} (h : ∀ t, Touches rs hs [] fs t (body t)) (s : State) :
    Touches (rs ++ s.repeatCounter) hs [] fs s (s.stringExec c body) := by
  by_cases hr : s.rep = .none
  · rw [stringExec_once hr]
    exact (h s).mono (by simp) (List.Subset.refl _) (List.Subset.refl _) (List.Subset.refl _)
  · have hc : Reg16.cx ∈ rs ++ s.repeatCounter := by simp [State.repeatCounter, hr]
    have loop := stringLoop_keeps (c := c) (P := Touches (rs ++ s.repeatCounter) hs [] fs s) (fun t ht =>
      (ht.trans (counted_touches t hc)).trans
        ((h _).mono (by simp) (List.Subset.refl _) (List.Subset.refl _) (List.Subset.refl _)))
      (s.r16 .cx).toNat s (Touches.refl s)
    rw [stringExec_repeat hr]
    exact loop.trans (Touches.of_eq rfl rfl rfl)

/-! ## Operations that had no footprint of their own -/

variable {s t u : State}

theorem cmp8_touches (s : State) (o : Operand Reg8) (b : Byte) : Touches rs hs ws arithFlags s (s.alu8 .cmp o b) := by
  rw [alu8_cmp]
  exact (afterOp8_touches s o).trans
    (setFlags_touches _ _ fun n hn => by rw [State.afterOp8_flags]; exact subFlags_get _ _ _ _ _ hn)

theorem cmp16_touches (s : State) (o : Operand Reg16) (b : Word) :
    Touches rs hs ws arithFlags s (s.alu16 .cmp o b) := by
  rw [alu16_cmp]
  exact (afterOp16_touches s o).trans
    (setFlags_touches _ _ fun n hn => by rw [State.afterOp16_flags]; exact subFlags_get _ _ _ _ _ hn)

theorem test_touches {w : Nat} (s : State) (a b : BitVec w) :
    Touches rs hs ws [.cf, .ovf, .sf, .zf, .pf] s (s.test a b) :=
  setFlags_touches _ _ fun _ hn => logicFlags_get _ _ hn

/-- SAHF writes the five flags of the low byte (40_data_movement.md R215). -/
theorem flagsOfAh_touches (s : State) :
    Touches rs hs ws [.sf, .zf, .af, .pf, .cf] s (s.setFlags (flagsOfAh (s.r8 .ah) s.flags)) := by
  refine setFlags_touches _ _ fun n hn => ?_
  cases n
  case tf | ief | df | ovf => rfl
  all_goals simp at hn

theorem setFlag_touches (s : State) (n : FlagName) (b : Bool) :
    Touches rs hs ws [n] s (s.setFlags (s.flags.set n b)) :=
  setFlags_touches _ _ fun _ hk => Flags.get_set_ne _ _ (by simpa using hk)

/-- The bytes that pushes store to rest on SS and SP alone (46_stack.md R450). -/
theorem State.pushBytes_congr (hg : t.sreg .ss = s.sreg .ss) (hr : t.r16 .sp = s.r16 .sp) :
    ∀ n, t.pushBytes n = s.pushBytes n
  | 0 => rfl
  | n + 1 => by rw [State.pushBytes, State.pushBytes, State.pushBytes_congr hg hr n, hg, hr]

theorem push_one_touches (hg : t.sreg .ss = s.sreg .ss) (hr : t.r16 .sp = s.r16 .sp) (v : Word) :
    Touches [.sp] hs (s.pushBytes 1) fs t (t.push v) :=
  State.pushBytes_congr hg hr 1 ▸ push_touches t v (List.mem_singleton.mpr rfl) (pushBytes_one t ▸ List.Subset.refl _)

theorem push_two_touches (hg : t.sreg .ss = s.sreg .ss) (hr : t.r16 .sp = s.r16 .sp) (v w : Word) :
    Touches [.sp] hs (s.pushBytes 2) fs t ((t.push v).push w) :=
  State.pushBytes_congr hg hr 2 ▸ push_push_touches t v w (List.mem_singleton.mpr rfl)

/-- Where a divide, which enters vector 0 on a divide error, may write, in the terms the footprints are in. -/
theorem faulting_touches {b : Bool} (h : b = true ∧ u = t.serviceInterrupt 0 ∨
    b = false ∧ Touches rs hs [] arithFlags t u ∧ Kept t u)
    (hg : t.sreg .ss = s.sreg .ss) (hr : t.r16 .sp = s.r16 .sp) :
    Touches (if b then [.sp] else rs) (if b then [] else hs) (if b then s.pushBytes 3 else [])
      (if b then [.tf, .ief] else arithFlags) t u := by
  rcases h with ⟨rfl, rfl⟩ | ⟨rfl, ht, -⟩
  · exact State.pushBytes_congr hg hr 3 ▸ serviceInterrupt_touches t 0
  · exact ht

/-- A divide of words writes no byte half. -/
theorem faulting16_touches {b : Bool} (h : b = true ∧ u = t.serviceInterrupt 0 ∨
    b = false ∧ Touches rs [] [] arithFlags t u ∧ Kept t u)
    (hg : t.sreg .ss = s.sreg .ss) (hr : t.r16 .sp = s.r16 .sp) :
    Touches (if b then [.sp] else rs) [] (if b then s.pushBytes 3 else [])
      (if b then [.tf, .ief] else arithFlags) t u := by
  simpa using faulting_touches h hg hr

theorem shift8_footprint (s : State) (op : ShiftOp) (m : Rm Reg8) (n : Nat) (h : op.writes ⊆ fs) :
    Touches [] (rmReg8 m) (s.rmBytes8 m) fs (s.decoded m) ((s.decoded m).shift8 op (s.operand m) n) :=
  (shift8_touches s op m n).mono (List.Subset.refl _) (List.Subset.refl _) (List.Subset.refl _) h

theorem shift16_footprint (s : State) (op : ShiftOp) (m : Rm Reg16) (n : Nat) (h : op.writes ⊆ fs) :
    Touches (rmReg16 m) [] (s.rmBytes16 m) fs (s.decoded m) ((s.decoded m).shift16 op (s.operand m) n) :=
  (shift16_touches s op m n).mono (List.Subset.refl _) (List.Subset.refl _) (List.Subset.refl _) h

/-! ## Divides, their divisor read -/

theorem loaded8_div8_cases (s : State) (m : Rm Reg8) :
    s.div8Faults (s.rmByte m) = true ∧ (s.loaded8 m).div8 (s.rmByte m) = (s.loaded8 m).serviceInterrupt 0 ∨
    s.div8Faults (s.rmByte m) = false ∧
      Touches [] [.al, .ah] [] arithFlags (s.loaded8 m) ((s.loaded8 m).div8 (s.rmByte m)) ∧
      Kept (s.loaded8 m) ((s.loaded8 m).div8 (s.rmByte m)) := by
  simpa [State.div8Faults] using div8_cases (s.loaded8 m) (s.rmByte m)

theorem loaded16_div16_cases (s : State) (m : Rm Reg16) :
    s.div16Faults (s.rmWord m) = true ∧ (s.loaded16 m).div16 (s.rmWord m) = (s.loaded16 m).serviceInterrupt 0 ∨
    s.div16Faults (s.rmWord m) = false ∧
      Touches [.ax, .dx] [] [] arithFlags (s.loaded16 m) ((s.loaded16 m).div16 (s.rmWord m)) ∧
      Kept (s.loaded16 m) ((s.loaded16 m).div16 (s.rmWord m)) := by
  simpa [State.div16Faults] using div16_cases (s.loaded16 m) (s.rmWord m)

theorem loaded8_idiv8_cases (s : State) (m : Rm Reg8) :
    s.idiv8Faults (s.rmByte m) = true ∧ (s.loaded8 m).idiv8 (s.rmByte m) = (s.loaded8 m).serviceInterrupt 0 ∨
    s.idiv8Faults (s.rmByte m) = false ∧
      Touches [] [.al, .ah] [] arithFlags (s.loaded8 m) ((s.loaded8 m).idiv8 (s.rmByte m)) ∧
      Kept (s.loaded8 m) ((s.loaded8 m).idiv8 (s.rmByte m)) := by
  simpa [State.idiv8Faults, State.idivOverflows, State.idivLeast] using idiv8_cases (s.loaded8 m) (s.rmByte m)

theorem loaded16_idiv16_cases (s : State) (m : Rm Reg16) :
    s.idiv16Faults (s.rmWord m) = true ∧ (s.loaded16 m).idiv16 (s.rmWord m) = (s.loaded16 m).serviceInterrupt 0 ∨
    s.idiv16Faults (s.rmWord m) = false ∧
      Touches [.ax, .dx] [] [] arithFlags (s.loaded16 m) ((s.loaded16 m).idiv16 (s.rmWord m)) ∧
      Kept (s.loaded16 m) ((s.loaded16 m).idiv16 (s.rmWord m)) := by
  simpa [State.idiv16Faults, State.idivOverflows, State.idivLeast, State.dxAx] using
    idiv16_cases (s.loaded16 m) (s.rmWord m)

/-! ## All instructions -/

/-- From `s` to `t` nothing changes outside the footprint of the instruction. -/
def State.Within (s : State) (i : Instr) (t : State) : Prop :=
  Touches (s.writtenRegs i) (s.writtenHalves i) (s.storedBytes i) (s.writtenFlags i) s t

/-- Every instruction stays within its footprint, family by family. -/
theorem exec_within (i : Instr) (s : State) : ∃ t, exec i s = .next t ∧ s.Within i t := by
  cases i
  case addEbGb m r | orEbGb m r | adcEbGb m r | sbbEbGb m r | andEbGb m r | subEbGb m r | xorEbGb m r
    | addEbIb m i | orEbIb m i | adcEbIb m i | sbbEbIb m i | andEbIb m i | subEbIb m i | xorEbIb m i =>
    exact ⟨_, rfl, (decoded_touches s m).trans (alu8_touches s _ m _ fun _ h => h)⟩
  case addEvGv m r | orEvGv m r | adcEvGv m r | sbbEvGv m r | andEvGv m r | subEvGv m r | xorEvGv m r
    | addEvIv m i | orEvIv m i | adcEvIv m i | sbbEvIv m i | andEvIv m i | subEvIv m i | xorEvIv m i
    | addEvSb m i | orEvSb m i | adcEvSb m i | sbbEvSb m i | andEvSb m i | subEvSb m i | xorEvSb m i =>
    exact ⟨_, rfl, (decoded_touches s m).trans (alu16_touches s _ m _ fun _ h => h)⟩
  case addGbEb r m | orGbEb r m | adcGbEb r m | sbbGbEb r m | andGbEb r m | subGbEb r m | xorGbEb r m =>
    exact ⟨_, rfl, (loaded8_touches s m).trans (alu8_touches _ _ (.reg r) _ fun _ h => h)⟩
  case addGvEv r m | orGvEv r m | adcGvEv r m | sbbGvEv r m | andGvEv r m | subGvEv r m | xorGvEv r m =>
    exact ⟨_, rfl, (loaded16_touches s m).trans (alu16_touches _ _ (.reg r) _ fun _ h => h)⟩
  case addAlIb i | orAlIb i | adcAlIb i | sbbAlIb i | andAlIb i | subAlIb i | xorAlIb i =>
    exact ⟨_, rfl, alu8_touches s _ (.reg .al) _ fun _ h => h⟩
  case addAxIv i | orAxIv i | adcAxIv i | sbbAxIv i | andAxIv i | subAxIv i | xorAxIv i =>
    exact ⟨_, rfl, alu16_touches s _ (.reg .ax) _ fun _ h => h⟩
  case cmpEbGb m r | cmpEbIb m i =>
    exact ⟨_, rfl, (decoded_touches s m).trans (cmp8_touches _ _ _)⟩
  case cmpEvGv m r | cmpEvIv m i | cmpEvSb m i =>
    exact ⟨_, rfl, (decoded_touches s m).trans (cmp16_touches _ _ _)⟩
  case cmpGbEb r m =>
    exact ⟨_, rfl, (loaded8_touches s m).trans (cmp8_touches _ _ _)⟩
  case cmpGvEv r m =>
    exact ⟨_, rfl, (loaded16_touches s m).trans (cmp16_touches _ _ _)⟩
  case cmpAlIb i =>
    exact ⟨_, rfl, cmp8_touches _ _ _⟩
  case cmpAxIv i =>
    exact ⟨_, rfl, cmp16_touches _ _ _⟩
  case testEbGb m r =>
    exact ⟨_, rfl, (loaded8_touches s m).trans (test_touches _ _ _)⟩
  case testEvGv m r =>
    exact ⟨_, rfl, (loaded16_touches s m).trans (test_touches _ _ _)⟩
  case testAlIb i | testAxIv i =>
    exact ⟨_, rfl, test_touches _ _ _⟩
  case testEbIb m i =>
    exact ⟨_, rfl, ((loaded8_touches s m).trans (afterImm8_touches _)).trans (test_touches _ _ _)⟩
  case testEvIv m i =>
    exact ⟨_, rfl, ((loaded16_touches s m).trans (afterImm16_touches _)).trans (test_touches _ _ _)⟩
  case notEb m =>
    exact ⟨_, rfl, (decoded_touches s m).trans (notOp8_touches s m)⟩
  case notEv m =>
    exact ⟨_, rfl, (decoded_touches s m).trans (notOp16_touches s m)⟩
  case negEb m =>
    exact ⟨_, rfl, (decoded_touches s m).trans (negOp8_touches s m)⟩
  case negEv m =>
    exact ⟨_, rfl, (decoded_touches s m).trans (negOp16_touches s m)⟩
  case incEb m =>
    exact ⟨_, rfl, (decoded_touches s m).trans (incOp8_touches s m)⟩
  case incEv m =>
    exact ⟨_, rfl, (decoded_touches s m).trans (incOp16_touches s m)⟩
  case incR16 r =>
    exact ⟨_, rfl, incOp16_touches s (.reg r)⟩
  case decEb m =>
    exact ⟨_, rfl, (decoded_touches s m).trans (decOp8_touches s m)⟩
  case decEv m =>
    exact ⟨_, rfl, (decoded_touches s m).trans (decOp16_touches s m)⟩
  case decR16 r =>
    exact ⟨_, rfl, decOp16_touches s (.reg r)⟩
  case movEbGb m r | movEbIb m i =>
    exact ⟨_, rfl, (decoded_touches s m).trans (writeOp8_touches s _ m _ rfl)⟩
  case movEvGv m r | movEvIv m i | movEwSw m g =>
    exact ⟨_, rfl, (decoded_touches s m).trans (writeOp16_touches s _ m _ rfl)⟩
  case movGbEb r m =>
    exact ⟨_, rfl, (loaded8_touches s m).trans (setR8_touches _ _ (List.mem_singleton.mpr rfl))⟩
  case movGvEv r m =>
    exact ⟨_, rfl, (loaded16_touches s m).trans (setR16_touches _ _ (List.mem_singleton.mpr rfl))⟩
  case movR8Ib r i =>
    exact ⟨_, rfl, setR8_touches _ _ (List.mem_singleton.mpr rfl)⟩
  case movR16Iv r i | cbw | cwd =>
    exact ⟨_, rfl, setR16_touches _ _ (List.mem_singleton.mpr rfl)⟩
  case movSwEw g m =>
    exact ⟨_, rfl, (loaded16_touches s m).trans (setSreg_touches _ _ _)⟩
  case movAlOb a | xlat =>
    exact ⟨_, rfl, (afterReadByte_touches s _).trans (setR8_touches _ _ (List.mem_singleton.mpr rfl))⟩
  case movAxOv a =>
    exact ⟨_, rfl, (afterReadWord_touches s _).trans (setR16_touches _ _ (List.mem_singleton.mpr rfl))⟩
  case movObAl a =>
    exact ⟨_, rfl, writeByte_touches s _ (List.mem_singleton.mpr rfl)⟩
  case movOvAx a =>
    exact ⟨_, rfl, writeWord_touches s _ (List.mem_cons_self ..) (List.mem_cons_of_mem _ (List.mem_cons_self ..))⟩
  case xchgEbGb m r =>
    exact ⟨_, rfl, (decoded_touches s m).trans (xchg8_touches s m r)⟩
  case xchgEvGv m r =>
    exact ⟨_, rfl, (decoded_touches s m).trans (xchg16_touches s m r)⟩
  case xchgAxR16 r =>
    exact ⟨_, rfl, (xchg16_touches s (.reg .ax) r).mono (List.Perm.swap ..).subset (List.Subset.refl _)
      (List.Subset.refl _) (List.Subset.refl _)⟩
  case lea r p =>
    exact ⟨_, rfl, (decodedMem_touches s p).trans (setR16_touches _ _ (List.mem_singleton.mpr rfl))⟩
  case lds r p | les r p =>
    exact ⟨_, rfl, (((decodedMem_touches s p).trans (afterFar_touches _ _)).trans
      (setR16_touches _ _ (List.mem_singleton.mpr rfl))).trans (setSreg_touches _ _ _)⟩
  case lahf =>
    exact ⟨_, rfl, setR8_touches _ _ (List.mem_singleton.mpr rfl)⟩
  case sahf =>
    exact ⟨_, rfl, flagsOfAh_touches s⟩
  case mulEb m =>
    exact ⟨_, rfl, (loaded8_touches s m).trans (mul8_touches _ _)⟩
  case mulEv m =>
    exact ⟨_, rfl, (loaded16_touches s m).trans (mul16_touches _ _)⟩
  case imulEb m =>
    exact ⟨_, rfl, (loaded8_touches s m).trans (imul8_touches _ _)⟩
  case imulEv m =>
    exact ⟨_, rfl, (loaded16_touches s m).trans (imul16_touches _ _)⟩
  case daa =>
    exact ⟨_, rfl, decimalAdd_touches s⟩
  case das =>
    exact ⟨_, rfl, decimalSub_touches s⟩
  case aaa | aas =>
    exact ⟨_, rfl, asciiAdjust_touches s _ _⟩
  case aad i =>
    exact ⟨_, rfl, asciiJoin_touches s i⟩
  case jo d | jno d | jb d | jae d | je d | jne d | jbe d | ja d | js d | jns d | jp d | jnp d | jl d
    | jge d | jle d | jg d | jcxz d =>
    exact ⟨_, rfl, branch_touches _ _ _⟩
  case jmpShort d | jmpNear d =>
    exact ⟨_, rfl, setIp_touches _ _⟩
  case jmpFar off sg =>
    exact ⟨_, rfl, (setIp_touches s _).trans (setSreg_touches _ _ _)⟩
  case jmpEv m =>
    exact ⟨_, rfl, (loaded16_touches s m).trans (setIp_touches _ _)⟩
  case jmpMp p =>
    exact ⟨_, rfl, ((decodedMem_touches s p).trans (afterFar_touches _ _)).trans
      ((setIp_touches _ _).trans (setSreg_touches _ _ _))⟩
  case callNear d =>
    exact ⟨_, rfl, (push_one_touches rfl rfl _).trans (setIp_touches _ _)⟩
  case callFar off sg =>
    exact ⟨_, rfl, (push_push_touches s _ _ (List.mem_singleton.mpr rfl)).trans ((setIp_touches _ _).trans
      (setSreg_touches _ _ _))⟩
  case callEv m =>
    exact ⟨_, rfl, (loaded16_touches s m).trans ((push_one_touches (by simp) (by simp) _).trans (setIp_touches _ _))⟩
  case callMp p =>
    exact ⟨_, rfl, ((decodedMem_touches s p).trans (afterFar_touches _ _)).trans
      ((push_two_touches (by simp) (by simp) _ _).trans ((setIp_touches _ _).trans (setSreg_touches _ _ _)))⟩
  case ret =>
    exact ⟨_, rfl, popIp_touches s (List.mem_singleton.mpr rfl)⟩
  case retIw n =>
    exact ⟨_, rfl, (popIp_touches s (List.mem_singleton.mpr rfl)).trans
      (setR16_touches _ _ (List.mem_singleton.mpr rfl))⟩
  case retf =>
    exact ⟨_, rfl, (popIp_touches s (List.mem_singleton.mpr rfl)).trans
      (popSreg_touches _ _ (List.mem_singleton.mpr rfl))⟩
  case retfIw n =>
    exact ⟨_, rfl, ((popIp_touches s (List.mem_singleton.mpr rfl)).trans
      (popSreg_touches _ _ (List.mem_singleton.mpr rfl))).trans (setR16_touches _ _ (List.mem_singleton.mpr rfl))⟩
  case iret =>
    exact ⟨_, rfl, ((popIp_touches s (List.mem_singleton.mpr rfl)).trans
      (popSreg_touches _ _ (List.mem_singleton.mpr rfl))).trans (popFlags_touches _ (List.mem_singleton.mpr rfl))⟩
  case loopJb d | loopz d | loopnz d =>
    exact ⟨_, rfl, (setR16_touches s _ (List.mem_singleton.mpr rfl)).trans (branch_touches _ _ _)⟩
  case movsb =>
    exact ⟨_, rfl, movs8_storeBody.stringExec8_touches s⟩
  case movsw =>
    exact ⟨_, rfl, movs16_storeBody.stringExec_touches s⟩
  case stosb =>
    exact ⟨_, rfl, stos8_storeBody.stringExec8_touches s⟩
  case stosw =>
    exact ⟨_, rfl, stos16_storeBody.stringExec_touches s⟩
  case cmpsb =>
    exact ⟨_, rfl, stringExec_touches cmps8_touches s⟩
  case cmpsw =>
    exact ⟨_, rfl, stringExec_touches cmps16_touches s⟩
  case lodsb =>
    exact ⟨_, rfl, stringExec_touches lods8_touches s⟩
  case lodsw =>
    exact ⟨_, rfl, stringExec_touches lods16_touches s⟩
  case scasb =>
    exact ⟨_, rfl, stringExec_touches scas8_touches s⟩
  case scasw =>
    exact ⟨_, rfl, stringExec_touches scas16_touches s⟩
  case rolEb1 m | rolEbCl m | rorEb1 m | rorEbCl m | rclEb1 m | rclEbCl m | rcrEb1 m | rcrEbCl m | shlEb1 m
    | shlEbCl m | shrEb1 m | shrEbCl m | sarEb1 m | sarEbCl m =>
    exact ⟨_, rfl, (decoded_touches s m).trans (shift8_footprint s _ m _ fun _ h => h)⟩
  case rolEv1 m | rolEvCl m | rorEv1 m | rorEvCl m | rclEv1 m | rclEvCl m | rcrEv1 m | rcrEvCl m | shlEv1 m
    | shlEvCl m | shrEv1 m | shrEvCl m | sarEv1 m | sarEvCl m =>
    exact ⟨_, rfl, (decoded_touches s m).trans (shift16_footprint s _ m _ fun _ h => h)⟩
  case pushR16 r | pushSreg g | pushf =>
    exact ⟨_, rfl, push_one_touches rfl rfl _⟩
  case pushEv m =>
    exact ⟨_, rfl, (loaded16_touches s m).trans (push_one_touches (by simp) (by simp) _)⟩
  case popR16 r =>
    exact ⟨_, rfl, (afterPop_touches s (List.mem_cons_self ..)).trans
      (setR16_touches _ _ (List.mem_cons_of_mem _ (List.mem_cons_self ..)))⟩
  case popSreg g =>
    exact ⟨_, rfl, popSreg_touches s _ (List.mem_singleton.mpr rfl)⟩
  case popEv m =>
    exact ⟨_, rfl, ((decoded_touches s m).trans (afterPop_touches _ (List.mem_cons_self ..))).trans
      ((writeOp16_touches s (s.decoded m).afterPop m _ rfl).mono (List.subset_cons_self ..)
        (List.Subset.refl _) (List.Subset.refl _) (List.Subset.refl _))⟩
  case popf =>
    exact ⟨_, rfl, popFlags_touches s (List.mem_singleton.mpr rfl)⟩
  case inAlIb i | inAlDx =>
    exact ⟨_, rfl, (afterIoRead_touches s _).trans (setR8_touches _ _ (List.mem_singleton.mpr rfl))⟩
  case outIbAl i | outDxAl =>
    exact ⟨_, rfl, Touches.of_mem rfl rfl rfl rfl⟩
  case int3 | intIb i =>
    exact ⟨_, rfl, serviceInterrupt_touches s _⟩
  case clc | stc | cmc =>
    exact ⟨_, rfl, setFlag_touches s .cf _⟩
  case cli | sti =>
    exact ⟨_, rfl, setFlag_touches s .ief _⟩
  case cld | std =>
    exact ⟨_, rfl, setFlag_touches s .df _⟩
  case wait | nop =>
    exact ⟨_, rfl, Touches.refl s⟩
  case hlt | pfxEs | pfxCs | pfxSs | pfxDs | pfxLock | pfxRepnz | pfxRepz | invalidOp b | invalidForm b q n =>
    exact ⟨_, rfl, Touches.of_eq rfl rfl rfl⟩
  case esc k q m =>
    exact ⟨_, rfl, decoded_touches s m⟩
  case invalidSub b q m =>
    exact ⟨_, rfl, (decoded_touches s m).trans (Touches.of_eq rfl rfl rfl)⟩
  case divEb m =>
    exact ⟨_, rfl, (loaded8_touches s m).trans
      (faulting_touches (loaded8_div8_cases s m) (by simp) (by simp))⟩
  case divEv m =>
    exact ⟨_, rfl, (loaded16_touches s m).trans
      (faulting16_touches (loaded16_div16_cases s m) (by simp) (by simp))⟩
  case idivEb m =>
    exact ⟨_, rfl, (loaded8_touches s m).trans
      (faulting_touches (loaded8_idiv8_cases s m) (by simp) (by simp))⟩
  case idivEv m =>
    exact ⟨_, rfl, (loaded16_touches s m).trans
      (faulting16_touches (loaded16_idiv16_cases s m) (by simp) (by simp))⟩
  case aam i =>
    refine ⟨_, rfl, ?_⟩
    by_cases h : i = 0#8
    · subst h
      exact serviceInterrupt_touches s 0
    · show Touches (if (i == 0) = true then [.sp] else []) (if i = 0 then [] else [.al, .ah])
        (if (i == 0) = true then s.pushBytes 3 else []) (if i = 0 then [.tf, .ief] else arithFlags) s (s.asciiSplit i)
      simpa [h] using asciiSplit_touches s h
  case into =>
    refine ⟨_, rfl, ?_⟩
    show Touches (if s.flags.ovf then [.sp] else []) [] (if s.flags.ovf then s.pushBytes 3 else [])
      (if s.flags.ovf then [.tf, .ief] else []) s (if s.flags.ovf then s.serviceInterrupt 4 else s)
    split
    · exact serviceInterrupt_touches s 4
    · exact Touches.refl s

theorem Within.of_exec {i : Instr} (h : exec i s = .next t) : s.Within i t := by
  obtain ⟨u, hu, hw⟩ := exec_within i s
  rw [h] at hu
  cases hu
  exact hw

end Sys2Proof.Machine
end

section
/-! Every step keeps the memory's canonical form (20_memory.md section 1, log 3). -/

namespace Sys2Proof.Machine

variable {s t : State}

theorem exec_wf {i : Instr} (h : exec i s = .next t) (hs : s.bus.wf = true) : t.bus.wf = true :=
  (Within.of_exec h).wf hs

theorem fetchInstr_wf (n : Nat) (bs : List Byte) (hs : s.bus.wf = true) :
    (State.fetchInstr n bs s).2.bus.wf = true := by
  obtain ⟨k, v, e⟩ := fetchInstr_afterBytes n bs s
  rw [e]
  exact (afterBytes_touches (rs := []) (hs := []) (ws := []) (fs := []) k s).wf hs

/-- The fetch, its prefixes one by one, keeps the canonical form. -/
theorem runInstr_wf : ∀ (n : Nat) (s : State), s.bus.wf = true → runInstr n s = .next t → t.bus.wf = true
  | 0, _, _, h => by cases h
  | n + 1, s, hs, h => by
    have hf := fetchInstr_wf (s := s.beginInstr) 6 [] hs
    rw [runInstr] at h
    split at h
    · cases h
    · next i u e =>
      rw [e] at hf
      obtain ⟨v, hv⟩ := exec_next i u
      have hw := exec_wf hv hf
      simp only [hv] at h
      split at h
      · exact runInstr_wf n v hw h
      · cases h
        exact finish_wf v _ _ hw

/-- Settles O56: the poll, each instruction of the fetch and the checks after it keep the form. -/
theorem stepKeepsMemoryForm : Obligations.StepKeepsMemoryForm := by
  unfold Obligations.StepKeepsMemoryForm
  intro s t hs h
  have hp : s.poll.bus.wf = true := poll_wf s hs
  unfold step at h
  split at h
  · cases h
  · split at h
    · cases h
    · split at h
      · cases h
        exact hp
      · exact runInstr_wf _ s.poll.clearPrefixes hp h

end Sys2Proof.Machine
end

section
/-! What every instruction leaves of the state outside registers, flags and memory: the segment registers, IP,
the state of the prefixes, the fault record, the collaborators (10_state.md section 5; 60_exceptions.md section 1). -/

namespace Sys2Proof.Machine

variable {gs : List SegReg} {b : Bool} {ov : Option SegReg} {s t u : State}

/-! ## Updates of registers, flags, memory and the bus -/

theorem push_kept (s : State) (v : Word) : Kept s (s.push v) := (setR16_kept _ _ _).trans (writeWord_kept _ _ _)

theorem afterPop_kept (s : State) : Kept s s.afterPop := (afterReadWord_kept _ _).trans (setR16_kept _ _ _)

theorem ioWrite_kept (s : State) (p : Word) (v : Byte) : Kept s (s.ioWrite p v) := by
  constructor
  case calls => exact ⟨[_], rfl⟩
  all_goals simp

theorem test_kept {w : Nat} (s : State) (a b : BitVec w) : Kept s (s.test a b) := setFlags_kept _ _

/-! ## The frame of control -/

/-- From `s` to `t` the segment registers outside `gs` and, unless `b`, IP are kept, `seg_override` becomes `ov`, the
rest of the control state and the map of the bus stay, calls of the bus are only added. -/
structure Frame (gs : List SegReg) (b : Bool) (ov : Option SegReg) (s t : State) : Prop where
  sreg : ∀ g, g ∉ gs → t.sreg g = s.sreg g
  ip : b = false → t.ip = s.ip
  segOverride : t.segOverride = ov
  rep : t.rep = s.rep
  lock : t.lock = s.lock
  opCs : t.opCs = s.opCs
  opIp : t.opIp = s.opIp
  halted : t.halted = s.halted
  faultRec : t.faultRec = s.faultRec
  irq : t.irq = s.irq
  windows : t.bus.windows = s.bus.windows
  portIn : t.bus.portIn = s.bus.portIn
  calls : ∃ cs, s.Calls t cs
  params : t.params = s.params
  busInstalled : t.busInstalled = s.busInstalled

theorem Frame.refl (s : State) : Frame gs b s.segOverride s s :=
  ⟨fun _ _ => rfl, fun _ => rfl, rfl, rfl, rfl, rfl, rfl, rfl, rfl, rfl, rfl, rfl, ⟨[], rfl⟩, rfl, rfl⟩

/-- What touches neither the control state nor the map keeps the frame. -/
theorem Frame.kept (h : Frame gs b ov s t) (k : Kept t u) : Frame gs b ov s u where
  sreg g hg := by rw [← h.sreg g hg, State.sreg, k.segs]; rfl
  ip hb := k.ip.trans (h.ip hb)
  segOverride := k.segOverride.trans h.segOverride
  rep := k.rep.trans h.rep
  lock := k.lock.trans h.lock
  opCs := k.opCs.trans h.opCs
  opIp := k.opIp.trans h.opIp
  halted := k.halted.trans h.halted
  faultRec := k.faultRec.trans h.faultRec
  irq := k.irq.trans h.irq
  windows := k.windows.trans h.windows
  portIn := k.portIn.trans h.portIn
  calls := h.calls.elim fun _ e => k.calls.elim fun _ f => ⟨_, State.Calls.trans e f⟩
  params := k.params.trans h.params
  busInstalled := k.busInstalled.trans h.busInstalled

theorem Kept.frame (k : Kept s t) : Frame gs b s.segOverride s t := (Frame.refl s).kept k

theorem Frame.setIp (h : Frame gs true ov s t) (v : Word) : Frame gs true ov s (t.setIp v) :=
  ⟨h.sreg, fun e => (by cases e), h.segOverride, h.rep, h.lock, h.opCs, h.opIp, h.halted, h.faultRec, h.irq,
    h.windows,
    h.portIn, h.calls, h.params, h.busInstalled⟩

theorem Frame.setSreg (h : Frame gs b ov s t) {g : SegReg} (hg : g ∈ gs) (v : Word) :
    Frame gs b ov s (t.setSreg g v) where
  sreg q hq := by
    have hne : q ≠ g := fun e => hq (e ▸ hg)
    rw [State.sreg_setSreg_ne _ _ hne]
    exact h.sreg q hq
  ip := h.ip
  segOverride := h.segOverride
  rep := h.rep
  lock := h.lock
  opCs := h.opCs
  opIp := h.opIp
  halted := h.halted
  faultRec := h.faultRec
  irq := h.irq
  windows := h.windows
  portIn := h.portIn
  calls := h.calls
  params := h.params
  busInstalled := h.busInstalled

/-- Interrupt entry writes CS, IP, SP, flags and the stack alone (60_exceptions.md R620). -/
theorem Frame.serviceInterrupt (h : Frame gs true ov s t) (hg : SegReg.cs ∈ gs) (n : Byte) :
    Frame gs true ov s (t.serviceInterrupt n) := by
  have entry : Frame gs true ov s t.entryHalf := ((h.kept (push_kept t t.packed)).kept (setFlags_kept _ _)).kept
    (push_kept _ (t.sreg .cs))
  exact ((((entry.kept (afterReadWord_kept _ _)).setSreg hg _).kept (push_kept _ _)).kept
    (afterReadWord_kept _ (vectorAddr n))).setIp _

/-- `seg_override` after an r/m operand is decoded (30_encoding.md R134). -/
def State.overrideBy (s : State) (p : Option MemOp) : Option SegReg :=
  match p with
  | some p => if stackBased p ∧ s.segOverride = none then some .ss else s.segOverride
  | none => s.segOverride

theorem decodedMem_frame (s : State) (p : MemOp) : Frame gs b (s.overrideBy (some p)) s (s.decodedMem p) := by
  rw [State.decodedMem_eq]
  exact ⟨fun _ _ => rfl, fun _ => rfl, rfl, rfl, rfl, rfl, rfl, rfl, rfl, rfl, rfl, rfl, ⟨[], rfl⟩, rfl, rfl⟩

theorem decoded_frame {R : Type} (s : State) (m : Rm R) : Frame gs b (s.overrideBy (rmMem m)) s (s.decoded m) := by
  cases m with
  | reg r => exact Frame.refl s
  | mem p => exact decodedMem_frame s p

theorem loaded8_frame (s : State) (m : Rm Reg8) : Frame gs b (s.overrideBy (rmMem m)) s (s.loaded8 m) :=
  (decoded_frame s m).kept (afterOp8_kept _ _)

theorem loaded16_frame (s : State) (m : Rm Reg16) : Frame gs b (s.overrideBy (rmMem m)) s (s.loaded16 m) :=
  (decoded_frame s m).kept (afterOp16_kept _ _)

theorem Frame.branch (h : Frame gs true ov s t) (c : Bool) (d : Word) : Frame gs true ov s (t.branch c d) := by
  unfold State.branch
  split
  · exact h.setIp _
  · exact h

/-- A divide, which enters vector 0 on a divide error. -/
theorem Frame.faulting {rs : List Reg16} {hs : List Reg8} (h : Frame (if b then [.cs] else []) b ov s t)
    (hc : b = true ∧ u = t.serviceInterrupt 0 ∨ b = false ∧ Touches rs hs [] arithFlags t u ∧ Kept t u) :
    Frame (if b then [.cs] else []) b ov s u := by
  rcases hc with ⟨rfl, rfl⟩ | ⟨rfl, -, hk⟩
  · exact h.serviceInterrupt (List.mem_singleton.mpr rfl) 0
  · exact h.kept hk

/-! ## The instructions that write no other control state -/

/-- The instructions that write neither `rep`, `lock`, `halted`, `fault` nor the answers ready for ports, and
`seg_override` only as the decoder does. -/
def isPlain (i : Instr) : Bool :=
  match i with
  | .hlt | .inAlIb _ | .inAlDx => false
  | i => !isPrefixByte i && !isInvalid i && !declaresRepeat i

/-- A plain instruction stays within its frame, family by family. -/
theorem exec_frame (i : Instr) (s : State) (h : isPlain i = true) :
    ∃ t, exec i s = .next t ∧ Frame (s.writtenSegs i) (s.movesIp i) (s.overrideAfter i) s t := by
  cases i
  case addEbGb m r | orEbGb m r | adcEbGb m r | sbbEbGb m r | andEbGb m r | subEbGb m r | xorEbGb m r
    | cmpEbGb m r | addEbIb m i | orEbIb m i | adcEbIb m i | sbbEbIb m i | andEbIb m i | subEbIb m i
    | xorEbIb m i | cmpEbIb m i =>
    exact ⟨_, rfl, (decoded_frame s m).kept (alu8_kept _ _ _ _)⟩
  case addEvGv m r | orEvGv m r | adcEvGv m r | sbbEvGv m r | andEvGv m r | subEvGv m r | xorEvGv m r
    | cmpEvGv m r | addEvIv m i | orEvIv m i | adcEvIv m i | sbbEvIv m i | andEvIv m i | subEvIv m i
    | xorEvIv m i | cmpEvIv m i | addEvSb m i | orEvSb m i | adcEvSb m i | sbbEvSb m i | andEvSb m i
    | subEvSb m i | xorEvSb m i | cmpEvSb m i =>
    exact ⟨_, rfl, (decoded_frame s m).kept (alu16_kept _ _ _ _)⟩
  case addGbEb r m | orGbEb r m | adcGbEb r m | sbbGbEb r m | andGbEb r m | subGbEb r m | xorGbEb r m
    | cmpGbEb r m =>
    exact ⟨_, rfl, (loaded8_frame s m).kept (alu8_kept _ _ _ _)⟩
  case addGvEv r m | orGvEv r m | adcGvEv r m | sbbGvEv r m | andGvEv r m | subGvEv r m | xorGvEv r m
    | cmpGvEv r m =>
    exact ⟨_, rfl, (loaded16_frame s m).kept (alu16_kept _ _ _ _)⟩
  case addAlIb i | orAlIb i | adcAlIb i | sbbAlIb i | andAlIb i | subAlIb i | xorAlIb i | cmpAlIb i =>
    exact ⟨_, rfl, (alu8_kept _ _ _ _).frame⟩
  case addAxIv i | orAxIv i | adcAxIv i | sbbAxIv i | andAxIv i | subAxIv i | xorAxIv i | cmpAxIv i =>
    exact ⟨_, rfl, (alu16_kept _ _ _ _).frame⟩
  case testEbGb m r =>
    exact ⟨_, rfl, (loaded8_frame s m).kept (test_kept _ _ _)⟩
  case testEvGv m r =>
    exact ⟨_, rfl, (loaded16_frame s m).kept (test_kept _ _ _)⟩
  case testAlIb i | testAxIv i =>
    exact ⟨_, rfl, (test_kept _ _ _).frame⟩
  case testEbIb m i =>
    exact ⟨_, rfl, ((loaded8_frame s m).kept (afterImm8_kept _)).kept (test_kept _ _ _)⟩
  case testEvIv m i =>
    exact ⟨_, rfl, ((loaded16_frame s m).kept (afterImm16_kept _)).kept (test_kept _ _ _)⟩
  case notEb m =>
    exact ⟨_, rfl, (decoded_frame s m).kept (notOp8_kept _ _)⟩
  case notEv m =>
    exact ⟨_, rfl, (decoded_frame s m).kept (notOp16_kept _ _)⟩
  case negEb m =>
    exact ⟨_, rfl, (decoded_frame s m).kept (negOp8_kept _ _)⟩
  case negEv m =>
    exact ⟨_, rfl, (decoded_frame s m).kept (negOp16_kept _ _)⟩
  case incEb m =>
    exact ⟨_, rfl, (decoded_frame s m).kept (incOp8_kept _ _)⟩
  case incEv m =>
    exact ⟨_, rfl, (decoded_frame s m).kept (incOp16_kept _ _)⟩
  case incR16 r =>
    exact ⟨_, rfl, (incOp16_kept _ _).frame⟩
  case decEb m =>
    exact ⟨_, rfl, (decoded_frame s m).kept (decOp8_kept _ _)⟩
  case decEv m =>
    exact ⟨_, rfl, (decoded_frame s m).kept (decOp16_kept _ _)⟩
  case decR16 r =>
    exact ⟨_, rfl, (decOp16_kept _ _).frame⟩
  case movEbGb m r | movEbIb m i =>
    exact ⟨_, rfl, (decoded_frame s m).kept (writeOp8_kept _ _ _)⟩
  case movEvGv m r | movEvIv m i | movEwSw m g =>
    exact ⟨_, rfl, (decoded_frame s m).kept (writeOp16_kept _ _ _)⟩
  case movGbEb r m =>
    exact ⟨_, rfl, (loaded8_frame s m).kept (setR8_kept _ _ _)⟩
  case movGvEv r m =>
    exact ⟨_, rfl, (loaded16_frame s m).kept (setR16_kept _ _ _)⟩
  case movR8Ib r i | lahf =>
    exact ⟨_, rfl, (setR8_kept _ _ _).frame⟩
  case movR16Iv r i | cbw | cwd =>
    exact ⟨_, rfl, (setR16_kept _ _ _).frame⟩
  case movSwEw g m =>
    exact ⟨_, rfl, (loaded16_frame s m).setSreg (List.mem_singleton.mpr rfl) _⟩
  case movAlOb a | xlat =>
    exact ⟨_, rfl, ((afterReadByte_kept _ _).trans (setR8_kept _ _ _)).frame⟩
  case movAxOv a =>
    exact ⟨_, rfl, ((afterReadWord_kept _ _).trans (setR16_kept _ _ _)).frame⟩
  case movObAl a =>
    exact ⟨_, rfl, (writeByte_kept _ _ _).frame⟩
  case movOvAx a =>
    exact ⟨_, rfl, (writeWord_kept _ _ _).frame⟩
  case xchgEbGb m r =>
    exact ⟨_, rfl, (decoded_frame s m).kept (xchg8_kept _ _ _)⟩
  case xchgEvGv m r =>
    exact ⟨_, rfl, (decoded_frame s m).kept (xchg16_kept _ _ _)⟩
  case xchgAxR16 r =>
    exact ⟨_, rfl, (xchg16_kept _ _ _).frame⟩
  case lea r p =>
    exact ⟨_, rfl, (decodedMem_frame s p).kept (setR16_kept _ _ _)⟩
  case lds r p | les r p =>
    exact ⟨_, rfl, (((decodedMem_frame s p).kept (afterFar_kept _ _)).kept (setR16_kept _ _ _)).setSreg
      (List.mem_singleton.mpr rfl) _⟩
  case sahf =>
    exact ⟨_, rfl, (setFlags_kept _ _).frame⟩
  case mulEb m =>
    exact ⟨_, rfl, (loaded8_frame s m).kept (mul8_kept _ _)⟩
  case mulEv m =>
    exact ⟨_, rfl, (loaded16_frame s m).kept (mul16_kept _ _)⟩
  case imulEb m =>
    exact ⟨_, rfl, (loaded8_frame s m).kept (imul8_kept _ _)⟩
  case imulEv m =>
    exact ⟨_, rfl, (loaded16_frame s m).kept (imul16_kept _ _)⟩
  case divEb m =>
    exact ⟨_, rfl, (loaded8_frame s m).faulting (loaded8_div8_cases s m)⟩
  case divEv m =>
    exact ⟨_, rfl, (loaded16_frame s m).faulting (loaded16_div16_cases s m)⟩
  case idivEb m =>
    exact ⟨_, rfl, (loaded8_frame s m).faulting (loaded8_idiv8_cases s m)⟩
  case idivEv m =>
    exact ⟨_, rfl, (loaded16_frame s m).faulting (loaded16_idiv16_cases s m)⟩
  case daa =>
    exact ⟨_, rfl, (decimalAdd_kept _).frame⟩
  case das =>
    exact ⟨_, rfl, (decimalSub_kept _).frame⟩
  case aaa | aas =>
    exact ⟨_, rfl, (asciiAdjust_kept _ _ _).frame⟩
  case aad i =>
    exact ⟨_, rfl, (asciiJoin_kept _ _).frame⟩
  case jo d | jno d | jb d | jae d | je d | jne d | jbe d | ja d | js d | jns d | jp d | jnp d | jl d
    | jge d | jle d | jg d | jcxz d =>
    exact ⟨_, rfl, (Frame.refl s).branch _ _⟩
  case jmpShort d | jmpNear d =>
    exact ⟨_, rfl, (Frame.refl s).setIp _⟩
  case jmpFar off sg =>
    exact ⟨_, rfl, (Frame.refl s).setIp _ |>.setSreg (List.mem_singleton.mpr rfl) _⟩
  case jmpEv m =>
    exact ⟨_, rfl, (loaded16_frame s m).setIp _⟩
  case jmpMp p =>
    exact ⟨_, rfl, (((decodedMem_frame s p).kept (afterFar_kept _ _)).setIp _).setSreg (List.mem_singleton.mpr rfl) _⟩
  case callNear d =>
    exact ⟨_, rfl, (push_kept _ _).frame.setIp _⟩
  case callFar off sg =>
    exact ⟨_, rfl, (((push_kept _ _).trans (push_kept _ _)).frame.setIp _).setSreg (List.mem_singleton.mpr rfl) _⟩
  case callEv m =>
    exact ⟨_, rfl, ((loaded16_frame s m).kept (push_kept _ _)).setIp _⟩
  case callMp p =>
    exact ⟨_, rfl, (((((decodedMem_frame s p).kept (afterFar_kept _ _)).kept (push_kept _ _)).kept
      (push_kept _ _)).setIp _).setSreg (List.mem_singleton.mpr rfl) _⟩
  case ret =>
    exact ⟨_, rfl, (afterPop_kept _).frame.setIp _⟩
  case retIw n =>
    exact ⟨_, rfl, ((afterPop_kept _).frame.setIp _).kept (setR16_kept _ _ _)⟩
  case retf =>
    exact ⟨_, rfl, (((afterPop_kept _).frame.setIp _).kept (afterPop_kept _)).setSreg (List.mem_singleton.mpr rfl) _⟩
  case retfIw n =>
    exact ⟨_, rfl, ((((afterPop_kept _).frame.setIp _).kept (afterPop_kept _)).setSreg
      (List.mem_singleton.mpr rfl) _).kept (setR16_kept _ _ _)⟩
  case iret =>
    exact ⟨_, rfl, (((((afterPop_kept _).frame.setIp _).kept (afterPop_kept _)).setSreg
      (List.mem_singleton.mpr rfl) _).kept (afterPop_kept _)).kept (setFlags_kept _ _)⟩
  case rolEb1 m | rolEbCl m | rorEb1 m | rorEbCl m | rclEb1 m | rclEbCl m | rcrEb1 m | rcrEbCl m | shlEb1 m
    | shlEbCl m | shrEb1 m | shrEbCl m | sarEb1 m | sarEbCl m =>
    exact ⟨_, rfl, (decoded_frame s m).kept (shift8_kept _ _ _ _)⟩
  case rolEv1 m | rolEvCl m | rorEv1 m | rorEvCl m | rclEv1 m | rclEvCl m | rcrEv1 m | rcrEvCl m | shlEv1 m
    | shlEvCl m | shrEv1 m | shrEvCl m | sarEv1 m | sarEvCl m =>
    exact ⟨_, rfl, (decoded_frame s m).kept (shift16_kept _ _ _ _)⟩
  case pushR16 r | pushSreg g | pushf =>
    exact ⟨_, rfl, (push_kept _ _).frame⟩
  case pushEv m =>
    exact ⟨_, rfl, (loaded16_frame s m).kept (push_kept _ _)⟩
  case popR16 r =>
    exact ⟨_, rfl, ((afterPop_kept _).trans (setR16_kept _ _ _)).frame⟩
  case popSreg g =>
    exact ⟨_, rfl, (afterPop_kept _).frame.setSreg (List.mem_singleton.mpr rfl) _⟩
  case popEv m =>
    exact ⟨_, rfl, ((decoded_frame s m).kept (afterPop_kept _)).kept (writeOp16_kept _ _ _)⟩
  case popf =>
    exact ⟨_, rfl, ((afterPop_kept _).trans (setFlags_kept _ _)).frame⟩
  case outIbAl i | outDxAl =>
    exact ⟨_, rfl, (ioWrite_kept s _ _).frame⟩
  case int3 | intIb i =>
    exact ⟨_, rfl, (Frame.refl s).serviceInterrupt (List.mem_singleton.mpr rfl) _⟩
  case clc | stc | cmc | cli | sti | cld | std =>
    exact ⟨_, rfl, (setFlags_kept _ _).frame⟩
  case wait | nop =>
    exact ⟨_, rfl, Frame.refl s⟩
  case esc k q m =>
    exact ⟨_, rfl, decoded_frame s m⟩
  case aam i =>
    refine ⟨_, rfl, ?_⟩
    by_cases h : i = 0
    · subst h
      exact (Frame.refl s).serviceInterrupt (List.mem_singleton.mpr rfl) 0
    · exact (asciiSplit_kept s h).frame
  case into =>
    refine ⟨_, rfl, ?_⟩
    show Frame (if s.flags.ovf then [.cs] else []) s.flags.ovf s.segOverride s
      (if s.flags.ovf then s.serviceInterrupt 4 else s)
    split
    · next e => exact e ▸ (Frame.refl s).serviceInterrupt (List.mem_singleton.mpr rfl) 4
    · exact Frame.refl s
  case loopJb d | loopz d | loopnz d =>
    exact ⟨_, rfl, (setR16_kept s _ _).frame.branch _ _⟩
  all_goals cases h

/-! ## All instructions -/

/-- What every instruction leaves of the control state, as the statements say it, and the calls of the bus. -/
structure Controlled (s : State) (i : Instr) (t : State) : Prop where
  sreg : ∀ g, g ∉ s.writtenSegs i → t.sreg g = s.sreg g
  ip : s.movesIp i = false → t.ip = s.ip
  halted : t.halted = (s.halted || decide (i = .hlt))
  faultRec : isInvalid i = false → t.faultRec = s.faultRec
  segOverride : t.segOverride = s.overrideAfter i
  rep : t.rep = s.repAfter i
  lock : t.lock = (s.lock || decide (i = .pfxLock))
  irq : t.irq = s.irq
  opCs : t.opCs = s.opCs
  opIp : t.opIp = s.opIp
  params : t.params = s.params
  busInstalled : t.busInstalled = s.busInstalled
  windows : t.bus.windows = s.bus.windows
  portIn : (∀ b, i ≠ .inAlIb b) → i ≠ .inAlDx → t.bus.portIn = s.bus.portIn
  calls : ∃ cs, s.Calls t cs

/-- What a plain instruction is not. -/
theorem isPlain_cases {i : Instr} (h : isPlain i = true) :
    i ≠ .hlt ∧ i ≠ .pfxLock ∧ ∀ s : State, s.repAfter i = s.rep := by
  refine ⟨(by rintro rfl; cases h), (by rintro rfl; cases h), fun s => ?_⟩
  unfold State.repAfter
  split
  · cases h
  · cases h
  · split
    · next e =>
      unfold isPlain at h
      split at h
      · cases h
      · cases h
      · cases h
      · simp [e] at h
    · rfl

/-- A frame is what the statements say of an instruction that leaves `rep`, `lock` and `halted` alone. -/
theorem Frame.controlled {i : Instr} (h : Frame (s.writtenSegs i) (s.movesIp i) (s.overrideAfter i) s t)
    (hh : i ≠ .hlt) (hl : i ≠ .pfxLock) (hr : s.repAfter i = s.rep) : Controlled s i t where
  sreg := h.sreg
  ip := h.ip
  halted := by simpa [hh] using h.halted
  faultRec _ := h.faultRec
  segOverride := h.segOverride
  rep := h.rep.trans hr.symm
  lock := by simpa [hl] using h.lock
  irq := h.irq
  opCs := h.opCs
  opIp := h.opIp
  params := h.params
  busInstalled := h.busInstalled
  windows := h.windows
  portIn _ _ := h.portIn
  calls := h.calls

/-- The repeat loop and the consumption of REP. -/
theorem stringExec_frame {c : Bool} {body : State → State} (h : ∀ t, Kept t (body t)) (s : State) :
    ∃ t, Frame gs b s.segOverride s t ∧ s.stringExec c body = { t with rep := .none } := by
  by_cases hr : s.rep = .none
  · refine ⟨body s, (h s).frame, ?_⟩
    rw [stringExec_once hr, ← hr, ← (h s).rep]
  · refine ⟨_, Kept.frame ?_, stringExec_repeat hr c body⟩
    exact stringLoop_keeps (P := Kept s) (fun t ht => (ht.trans (counted_kept t)).trans (h _)) _ s (Kept.refl s)

/-- A string instruction consumes REP (44_string.md R391). -/
theorem string_controlled {i : Instr} {c : Bool} {body : State → State} (h : ∀ t, Kept t (body t)) (s : State)
    (hp : s.repAfter i = .none) (ho : s.overrideAfter i = s.segOverride) (hh : i ≠ .hlt) (hl : i ≠ .pfxLock) :
    Controlled s i (s.stringExec c body) := by
  obtain ⟨t, ht, e⟩ := stringExec_frame (gs := s.writtenSegs i) (b := s.movesIp i) (c := c) h s
  rw [e]
  constructor
  case halted => simpa [hh] using ht.halted
  case faultRec => exact fun _ => ht.faultRec
  case segOverride => exact ht.segOverride.trans ho.symm
  case rep => exact hp.symm
  case lock => simpa [hl] using ht.lock
  case portIn => exact fun _ _ => ht.portIn
  case sreg => exact ht.sreg
  case ip => exact ht.ip
  case irq => exact ht.irq
  case opCs => exact ht.opCs
  case opIp => exact ht.opIp
  case params => exact ht.params
  case busInstalled => exact ht.busInstalled
  case windows => exact ht.windows
  case calls => exact ht.calls

/-- Every instruction leaves the control state as the statements say: the plain ones by their frame, the others one
by one. -/
theorem exec_controlled (i : Instr) (s : State) : ∃ t, exec i s = .next t ∧ Controlled s i t := by
  by_cases hp : isPlain i = true
  · obtain ⟨t, e, hf⟩ := exec_frame i s hp
    obtain ⟨hh, hl, hr⟩ := isPlain_cases hp
    exact ⟨t, e, hf.controlled hh hl (hr s)⟩
  · cases i
    case movsb => exact ⟨_, rfl, string_controlled movs8_kept s rfl rfl nofun nofun⟩
    case movsw => exact ⟨_, rfl, string_controlled movs16_kept s rfl rfl nofun nofun⟩
    case cmpsb => exact ⟨_, rfl, string_controlled cmps8_kept s rfl rfl nofun nofun⟩
    case cmpsw => exact ⟨_, rfl, string_controlled cmps16_kept s rfl rfl nofun nofun⟩
    case stosb => exact ⟨_, rfl, string_controlled stos8_kept s rfl rfl nofun nofun⟩
    case stosw => exact ⟨_, rfl, string_controlled stos16_kept s rfl rfl nofun nofun⟩
    case lodsb => exact ⟨_, rfl, string_controlled lods8_kept s rfl rfl nofun nofun⟩
    case lodsw => exact ⟨_, rfl, string_controlled lods16_kept s rfl rfl nofun nofun⟩
    case scasb => exact ⟨_, rfl, string_controlled scas8_kept s rfl rfl nofun nofun⟩
    case scasw => exact ⟨_, rfl, string_controlled scas16_kept s rfl rfl nofun nofun⟩
    case inAlIb i =>
      refine ⟨_, rfl, ?_⟩
      constructor
      case portIn => exact fun h _ => absurd rfl (h i)
      case calls => exact ⟨[_], rfl⟩
      all_goals simp [State.overrideAfter, memOperand, State.repAfter, declaresRepeat]
    case inAlDx =>
      refine ⟨_, rfl, ?_⟩
      constructor
      case portIn => exact fun _ h => absurd rfl h
      case calls => exact ⟨[_], rfl⟩
      all_goals simp [State.overrideAfter, memOperand, State.repAfter, declaresRepeat]
    case hlt | pfxEs | pfxCs | pfxSs | pfxDs | pfxLock | pfxRepnz | pfxRepz =>
      refine ⟨_, rfl, ?_⟩
      constructor
      case calls => exact ⟨[], rfl⟩
      case halted | lock => simp
      all_goals intros; rfl
    case invalidOp b | invalidForm b q n =>
      refine ⟨_, rfl, ?_⟩
      constructor
      case calls => exact ⟨[], rfl⟩
      case faultRec => exact nofun
      all_goals simp [State.overrideAfter, memOperand, State.repAfter, declaresRepeat]
    case invalidSub b q m =>
      refine ⟨_, rfl, ?_⟩
      have hd : Frame [] false (s.overrideBy (rmMem m)) s (s.decoded m) := decoded_frame s m
      constructor
      case calls => exact hd.calls
      case faultRec => exact nofun
      case segOverride => exact hd.segOverride
      all_goals simp [State.repAfter, declaresRepeat]
    all_goals exact absurd rfl hp

theorem Controlled.of_exec {i : Instr} (h : exec i s = .next t) : Controlled s i t := by
  obtain ⟨u, hu, hc⟩ := exec_controlled i s
  rw [h] at hu
  cases hu
  exact hc

/-- Settles O60: one field of the control state after another. -/
theorem controlFrame : Obligations.ControlFrame := by
  unfold Obligations.ControlFrame
  intro i s t h
  have c := Controlled.of_exec h
  exact ⟨c.ip, c.halted, c.faultRec, c.segOverride, c.rep, c.lock, c.irq, c.opCs, c.opIp, c.params, c.busInstalled,
    c.windows, c.portIn⟩

end Sys2Proof.Machine
end

section
/-! The frames of registers and of memory, for all instructions (10_state.md sections 1 and 2; 20_memory.md
section 1). -/

namespace Sys2Proof.Machine

variable {s t : State}

/-! ## Registers -/

/-- No encoding of a move or a pop to CS exists, so the other instructions leave CS (30_encoding.md R152). -/
theorem cs_not_mem_writtenSegs {i : Instr} (hw : i.wf = true) (hc : writesCs i = false) :
    SegReg.cs ∉ s.writtenSegs i := by
  cases i
  case movSwEw g m =>
    have hg : g ≠ .cs := by simpa using (Bool.and_eq_true_iff.mp hw).1
    exact fun h => hg (List.mem_singleton.mp h).symm
  case popSreg g =>
    have hg : g ≠ .cs := by simpa using (show (g != .cs) = true from hw)
    exact fun h => hg (List.mem_singleton.mp h).symm
  case lds r p | les r p => exact fun h => nomatch List.mem_singleton.mp h
  case jmpFar | jmpMp | callFar | callMp | retf | retfIw | iret | int3 | intIb | into | divEb | divEv | idivEb
      | idivEv | aam => cases hc
  all_goals exact List.not_mem_nil

/-- Settles O57: what an instruction touches, and the segment registers it leaves. -/
theorem registerFrame : Obligations.RegisterFrame := by
  unfold Obligations.RegisterFrame
  intro i s t h
  have w := Within.of_exec h
  have c := Controlled.of_exec h
  exact ⟨w.r16, w.r8, c.sreg, fun hw hc => c.sreg .cs (cs_not_mem_writtenSegs hw hc)⟩

/-! ## The bus -/

theorem alu8_reg_bus (s : State) (op : AluOp) (r : Reg8) (b : Byte) : (s.alu8 op (.reg r) b).bus = s.bus := by
  unfold State.alu8
  dsimp only
  split <;> rfl

theorem alu16_reg_bus (s : State) (op : AluOp) (r : Reg16) (b : Word) : (s.alu16 op (.reg r) b).bus = s.bus := by
  unfold State.alu16
  dsimp only
  split <;> rfl

theorem notFlags_bus {w : Nat} (s : State) (r : BitVec w) : (s.notFlags r).bus = s.bus := by
  unfold State.notFlags
  split <;> rfl

theorem branch_bus (s : State) (c : Bool) (d : Word) : (s.branch c d).bus = s.bus := by
  unfold State.branch
  split <;> rfl

@[simp] theorem State.shiftFlags_bus {w : Nat} (s : State) (op : ShiftOp) (n : Nat) (v : BitVec w)
    (x : BitVec w × Bool) : (s.shiftFlags op n v x).bus = s.bus := by
  obtain ⟨u, hu, e⟩ := shiftFlags_eq s op n v x
  have hb : u.bus = s.bus := by
    rcases hu with ⟨-, rfl⟩ | ⟨-, rfl⟩
    · rfl
    · simp
  rw [e]
  split
  · simp [hb]
  · exact hb

theorem shift8_reg_bus (s : State) (op : ShiftOp) (r : Reg8) (n : Nat) : (s.shift8 op (.reg r) n).bus = s.bus := by
  unfold State.shift8
  dsimp only
  split
  · rfl
  · simp

theorem shift16_reg_bus (s : State) (op : ShiftOp) (r : Reg16) (n : Nat) :
    (s.shift16 op (.reg r) n).bus = s.bus := by
  unfold State.shift16
  dsimp only
  split
  · rfl
  · simp

/-- A divide that is no divide error, by a byte (42_muldiv_bcd.md R303). -/
theorem State.div8_eq {s : State} {d : Byte} (h : s.div8Faults d = false) :
    s.div8 d = ((s.setR8 .al (BitVec.ofNat 8 ((s.r16 .ax).toNat / d.toNat))).setR8 .ah
      (BitVec.ofNat 8 ((s.r16 .ax).toNat % d.toNat))).divFlags := by
  obtain ⟨hd, hq⟩ : ¬ d = 0 ∧ ¬ (s.r16 .ax).toNat / d.toNat > 0xFF := by simpa [State.div8Faults] using h
  unfold State.div8
  rw [if_neg hd, if_neg hq]

/-- A divide that is no divide error, by a word (42_muldiv_bcd.md R303). -/
theorem State.div16_eq {s : State} {d : Word} (h : s.div16Faults d = false) :
    s.div16 d = ((s.setR16 .ax (BitVec.ofNat 16 (s.dxAx.toNat / d.toNat))).setR16 .dx
      (BitVec.ofNat 16 (s.dxAx.toNat % d.toNat))).divFlags := by
  obtain ⟨hd, hq⟩ : ¬ d = 0 ∧ ¬ s.dxAx.toNat / d.toNat > 0xFFFF := by
    simpa [State.div16Faults, State.dxAx_toNat] using h
  unfold State.div16
  rw [if_neg hd, if_neg hq]

/-- A signed divide that is no divide error, by a byte (42_muldiv_bcd.md R304). -/
theorem State.idiv8_eq {s : State} {d : Byte} (h : s.idiv8Faults d = false) :
    s.idiv8 d = ((s.setR8 .al (BitVec.ofInt 8 ((s.r16 .ax).toInt.tdiv d.toInt))).setR8 .ah
      (BitVec.ofInt 8 ((s.r16 .ax).toInt.tmod d.toInt))).divFlags := by
  obtain ⟨hd, hq⟩ : ¬ d = 0 ∧ ¬ s.idivOverflows 8 ((s.r16 .ax).toInt.tdiv d.toInt) = true := by
    simpa [State.idiv8Faults] using h
  unfold State.idiv8
  rw [if_neg hd, if_neg hq]

/-- A signed divide that is no divide error, by a word (42_muldiv_bcd.md R304). -/
theorem State.idiv16_eq {s : State} {d : Word} (h : s.idiv16Faults d = false) :
    s.idiv16 d = ((s.setR16 .ax (BitVec.ofInt 16 (s.dxAx.toInt.tdiv d.toInt))).setR16 .dx
      (BitVec.ofInt 16 (s.dxAx.toInt.tmod d.toInt))).divFlags := by
  obtain ⟨hd, hq⟩ : ¬ d = 0 ∧ ¬ s.idivOverflows 16 (s.dxAx.toInt.tdiv d.toInt) = true := by
    simpa [State.idiv16Faults] using h
  unfold State.idiv16
  rw [if_neg hd, if_neg hq]

/-- AAM by another base than 0 (42_muldiv_bcd.md R311). -/
theorem State.asciiSplit_eq (s : State) {b : Byte} (h : b ≠ 0) :
    s.asciiSplit b = State.undefFlags [.ovf, .af, .cf]
      (((s.setR8 .ah (BitVec.ofNat 8 ((s.r8 .al).toNat / b.toNat))).setR8 .al
        (BitVec.ofNat 8 ((s.r8 .al).toNat % b.toNat))).setFlags
        (s.flags.setSZP (BitVec.ofNat 8 ((s.r8 .al).toNat % b.toNat)))) := by
  unfold State.asciiSplit
  rw [if_neg h]
  rfl

theorem div8_bus (s : State) (d : Byte) (h : s.div8Faults d = false) : (s.div8 d).bus = s.bus := by
  simp [State.div8_eq h, State.divFlags]

theorem div16_bus (s : State) (d : Word) (h : s.div16Faults d = false) : (s.div16 d).bus = s.bus := by
  simp [State.div16_eq h, State.divFlags]

theorem idiv8_bus (s : State) (d : Byte) (h : s.idiv8Faults d = false) : (s.idiv8 d).bus = s.bus := by
  simp [State.idiv8_eq h, State.divFlags]

theorem idiv16_bus (s : State) (d : Word) (h : s.idiv16Faults d = false) : (s.idiv16 d).bus = s.bus := by
  simp [State.idiv16_eq h, State.divFlags]

theorem asciiSplit_bus (s : State) (b : Byte) (h : b ≠ 0) : (s.asciiSplit b).bus = s.bus := by
  simp [State.asciiSplit_eq s h]

/-- An instruction that accesses neither memory nor ports leaves the bus, family by family. -/
theorem exec_bus (i : Instr) (s : State) (h : s.callsBus i = false) : ∃ t, exec i s = .next t ∧ t.bus = s.bus := by
  cases i
  case addEbGb m r | orEbGb m r | adcEbGb m r | sbbEbGb m r | andEbGb m r | subEbGb m r | xorEbGb m r
    | cmpEbGb m r | addEbIb m i | orEbIb m i | adcEbIb m i | sbbEbIb m i | andEbIb m i | subEbIb m i
    | xorEbIb m i | cmpEbIb m i =>
    cases m with
    | mem p => cases h
    | reg q => exact ⟨_, rfl, alu8_reg_bus s _ q _⟩
  case addEvGv m r | orEvGv m r | adcEvGv m r | sbbEvGv m r | andEvGv m r | subEvGv m r | xorEvGv m r
    | cmpEvGv m r | addEvIv m i | orEvIv m i | adcEvIv m i | sbbEvIv m i | andEvIv m i | subEvIv m i
    | xorEvIv m i | cmpEvIv m i | addEvSb m i | orEvSb m i | adcEvSb m i | sbbEvSb m i | andEvSb m i
    | subEvSb m i | xorEvSb m i | cmpEvSb m i =>
    cases m with
    | mem p => cases h
    | reg q => exact ⟨_, rfl, alu16_reg_bus s _ q _⟩
  case addGbEb r m | orGbEb r m | adcGbEb r m | sbbGbEb r m | andGbEb r m | subGbEb r m | xorGbEb r m
    | cmpGbEb r m =>
    cases m with
    | mem p => cases h
    | reg q => exact ⟨_, rfl, alu8_reg_bus s _ r _⟩
  case addGvEv r m | orGvEv r m | adcGvEv r m | sbbGvEv r m | andGvEv r m | subGvEv r m | xorGvEv r m
    | cmpGvEv r m =>
    cases m with
    | mem p => cases h
    | reg q => exact ⟨_, rfl, alu16_reg_bus s _ r _⟩
  case addAlIb i | orAlIb i | adcAlIb i | sbbAlIb i | andAlIb i | subAlIb i | xorAlIb i | cmpAlIb i =>
    exact ⟨_, rfl, alu8_reg_bus s _ .al _⟩
  case addAxIv i | orAxIv i | adcAxIv i | sbbAxIv i | andAxIv i | subAxIv i | xorAxIv i | cmpAxIv i =>
    exact ⟨_, rfl, alu16_reg_bus s _ .ax _⟩
  case testEbGb m r | testEvGv m r | negEb m | negEv m | incEb m | incEv m | decEb m | decEv m | movEbGb m r
    | movEvGv m r | movGbEb r m | movGvEv r m | movEbIb m i | movEvIv m i | movSwEw g m | movEwSw m g
    | xchgEbGb m r | xchgEvGv m r | jmpEv m =>
    cases m with
    | mem p => cases h
    | reg q => exact ⟨_, rfl, rfl⟩
  case testAlIb i | testAxIv i | incR16 r | decR16 r | movR8Ib r i | movR16Iv r i | xchgAxR16 r | lahf
    | sahf | cbw | cwd | jmpShort d | jmpNear d | jmpFar off sg | hlt | wait | nop | clc | stc | cmc | cli
    | sti | cld | std | pfxEs | pfxCs | pfxSs | pfxDs | pfxLock | pfxRepnz | pfxRepz | invalidOp b
    | invalidForm b q n =>
    exact ⟨_, rfl, rfl⟩
  case notEb m =>
    cases m with
    | mem p => cases h
    | reg q => exact ⟨_, rfl, notFlags_bus (s.setR8 q _) _⟩
  case notEv m =>
    cases m with
    | mem p => cases h
    | reg q => exact ⟨_, rfl, notFlags_bus (s.setR16 q _) _⟩
  case lea r p =>
    exact ⟨_, rfl, State.decodedMem_bus s p⟩
  case esc k q m =>
    exact ⟨_, rfl, State.decoded_bus s m⟩
  case invalidSub b q m =>
    exact ⟨_, rfl, State.decoded_bus s m⟩
  case mulEb m | mulEv m | imulEb m | imulEv m =>
    cases m with
    | mem p => cases h
    | reg q => exact ⟨_, rfl, State.undefFlags_bus _ _⟩
  case daa | das =>
    exact ⟨_, rfl, State.undefFlag_bus _ _⟩
  case aaa | aas | aad i =>
    exact ⟨_, rfl, State.undefFlags_bus _ _⟩
  case jo d | jno d | jb d | jae d | je d | jne d | jbe d | ja d | js d | jns d | jp d | jnp d | jl d
    | jge d | jle d | jg d | jcxz d =>
    exact ⟨_, rfl, branch_bus s _ _⟩
  case loopJb d | loopz d | loopnz d =>
    exact ⟨_, rfl, branch_bus s.countDown _ _⟩
  case rolEb1 m | rolEbCl m | rorEb1 m | rorEbCl m | rclEb1 m | rclEbCl m | rcrEb1 m | rcrEbCl m | shlEb1 m
    | shlEbCl m | shrEb1 m | shrEbCl m | sarEb1 m | sarEbCl m =>
    cases m with
    | mem p => cases h
    | reg q => exact ⟨_, rfl, shift8_reg_bus s _ q _⟩
  case rolEv1 m | rolEvCl m | rorEv1 m | rorEvCl m | rclEv1 m | rclEvCl m | rcrEv1 m | rcrEvCl m | shlEv1 m
    | shlEvCl m | shrEv1 m | shrEvCl m | sarEv1 m | sarEvCl m =>
    cases m with
    | mem p => cases h
    | reg q => exact ⟨_, rfl, shift16_reg_bus s _ q _⟩
  case divEb m =>
    obtain ⟨hf, hm⟩ : s.div8Faults (s.rmByte m) = false ∧ (rmMem m).isSome = false := Bool.or_eq_false_iff.mp h
    cases m with
    | mem p => cases hm
    | reg q => exact ⟨_, rfl, div8_bus s _ hf⟩
  case divEv m =>
    obtain ⟨hf, hm⟩ : s.div16Faults (s.rmWord m) = false ∧ (rmMem m).isSome = false := Bool.or_eq_false_iff.mp h
    cases m with
    | mem p => cases hm
    | reg q => exact ⟨_, rfl, div16_bus s _ hf⟩
  case idivEb m =>
    obtain ⟨hf, hm⟩ : s.idiv8Faults (s.rmByte m) = false ∧ (rmMem m).isSome = false := Bool.or_eq_false_iff.mp h
    cases m with
    | mem p => cases hm
    | reg q => exact ⟨_, rfl, idiv8_bus s _ hf⟩
  case idivEv m =>
    obtain ⟨hf, hm⟩ : s.idiv16Faults (s.rmWord m) = false ∧ (rmMem m).isSome = false := Bool.or_eq_false_iff.mp h
    cases m with
    | mem p => cases hm
    | reg q => exact ⟨_, rfl, idiv16_bus s _ hf⟩
  case aam i =>
    obtain ⟨hi, -⟩ : (i == 0) = false ∧ _ := Bool.or_eq_false_iff.mp h
    exact ⟨_, rfl, asciiSplit_bus s i (by simpa using hi)⟩
  case into =>
    obtain ⟨ho, -⟩ : s.flags.ovf = false ∧ _ := Bool.or_eq_false_iff.mp h
    exact ⟨_, rfl, by rw [ho]; rfl⟩
  all_goals cases h

/-- Settles O58: the bytes an instruction touches, the bus's map and calls, and the instructions that call no bus. -/
theorem memoryFrame : Obligations.MemoryFrame := by
  unfold Obligations.MemoryFrame
  intro i s t h
  have c := Controlled.of_exec h
  refine ⟨(Within.of_exec h).byte, fun pa => ?_, c.calls, fun hb => ?_⟩
  · rw [State.kindAt, Bus.kindAt, c.windows]
    rfl
  · obtain ⟨u, hu, e⟩ := exec_bus i s hb
    rw [h] at hu
    cases hu
    exact e

end Sys2Proof.Machine
end

section
/-! The frame of the flags, for all instructions, and the flags an instruction leaves undefined (10_state.md R48). -/

namespace Sys2Proof.Machine

variable {ms ns : List FlagName} {s t : State}

/-! ## Flags left undefined -/

/-- From `s` to `t` the flags `ns` are left undefined, in that order, and no others: kept and nothing drawn under
`P_UNDEF_FLAGS = unchanged`, each a free value of its own under `draw`. -/
structure Undefines (ns : List FlagName) (s t : State) : Prop where
  keep : s.params.undefFlags = .unchanged → t.draws = s.draws ∧ ∀ n ∈ ns, t.flags.get n = s.flags.get n
  draw : s.params.undefFlags = .draw → t.draws = s.draws + ns.length ∧
    ∀ (k : Nat) (n : FlagName), ns[k]? = some n → t.flags.get n = Config.freeFlag (s.draws + k)

theorem Undefines.none (h : t.draws = s.draws) : Undefines [] s t where
  keep _ := ⟨h, nofun⟩
  draw _ := ⟨h, nofun⟩

theorem State.undefFlag_draws_draw (s : State) (n : FlagName) (h : s.params.undefFlags = .draw) :
    (s.undefFlag n).draws = s.draws + 1 := by
  simp [State.undefFlag, h]

/-- One more flag left undefined. -/
theorem Undefines.undefFlag {n : FlagName} (h : Undefines ns s t) (hp : t.params = s.params) (hn : n ∉ ns)
    (hf : t.flags.get n = s.flags.get n) : Undefines (ns ++ [n]) s (t.undefFlag n) where
  keep hu := by
    obtain ⟨hd, hk⟩ := h.keep hu
    rw [State.undefFlag_unchanged t n (by rw [hp]; exact hu)]
    refine ⟨hd, fun m hm => ?_⟩
    rcases List.mem_append.mp hm with hm | hm
    · exact hk m hm
    · rw [List.mem_singleton.mp hm, hf]
  draw hu := by
    obtain ⟨hd, hk⟩ := h.draw hu
    have hu' : t.params.undefFlags = .draw := by rw [hp]; exact hu
    refine ⟨by rw [State.undefFlag_draws_draw t n hu', hd, List.length_append]; rfl, fun k m hm => ?_⟩
    by_cases hl : k < ns.length
    · rw [List.getElem?_append_left hl] at hm
      have hne : m ≠ n := fun e => hn (e ▸ List.mem_of_getElem? hm)
      rw [State.get_undefFlag_ne t hne]
      exact hk k m hm
    · rw [List.getElem?_append_right (by omega), List.getElem?_singleton] at hm
      split at hm
      · next hz =>
        cases hm
        rw [State.get_undefFlag_draw t n hu', hd, show k = ns.length by omega]
      · cases hm

/-- Several more flags left undefined. -/
theorem Undefines.undefFlags : ∀ (ns ms : List FlagName) {t : State}, Undefines ms s t → t.params = s.params →
    (ms ++ ns).Nodup → (∀ n ∈ ns, t.flags.get n = s.flags.get n) → Undefines (ms ++ ns) s (State.undefFlags ns t)
  | [], ms, t, h, _, _, _ => by rwa [List.append_nil]
  | n :: ns, ms, t, h, hp, hd, hf => by
    have hn : n ∉ ms := fun hm => (List.nodup_append.mp hd).2.2 n hm n (List.mem_cons_self ..) rfl
    have hr : n ∉ ns := (List.nodup_cons.mp (List.nodup_append.mp hd).2.1).1
    have h1 := h.undefFlag hp hn (hf n (List.mem_cons_self ..))
    have hd1 : ((ms ++ [n]) ++ ns).Nodup := by simpa using hd
    have hu : Undefines (ms ++ [n] ++ ns) s (State.undefFlags (n :: ns) t) :=
      Undefines.undefFlags ns (ms ++ [n]) h1 (by simpa using hp) hd1 fun k hk => by
      have hne : k ≠ n := fun e => hr (e ▸ hk)
      rw [State.get_undefFlag_ne t hne]
      exact hf k (List.mem_cons_of_mem _ hk)
    rwa [List.append_assoc] at hu

/-- Other flags set after it. -/
theorem Undefines.setFlags {f : Flags} (h : Undefines ns s t) (hf : ∀ n ∈ ns, f.get n = t.flags.get n) :
    Undefines ns s (t.setFlags f) where
  keep hu := ⟨(h.keep hu).1, fun n hn => (hf n hn).trans ((h.keep hu).2 n hn)⟩
  draw hu := ⟨(h.draw hu).1, fun k n hn => (hf n (List.mem_of_getElem? hn)).trans ((h.draw hu).2 k n hn)⟩

/-- Flags left undefined after updates that draw nothing and leave them. -/
theorem undefFlags_undefines (ns : List FlagName) (hd : t.draws = s.draws) (hp : t.params = s.params)
    (hn : ns.Nodup) (hf : ∀ n ∈ ns, t.flags.get n = s.flags.get n) : Undefines ns s (State.undefFlags ns t) :=
  Undefines.undefFlags ns [] (Undefines.none hd) hp hn hf

/-! ## Shared operations that leave no flag undefined -/

theorem alu8_draws (s : State) (op : AluOp) (o : Operand Reg8) (b : Byte) : (s.alu8 op o b).draws = s.draws := by
  unfold State.alu8
  dsimp only
  split <;> simp

theorem alu16_draws (s : State) (op : AluOp) (o : Operand Reg16) (b : Word) : (s.alu16 op o b).draws = s.draws := by
  unfold State.alu16
  dsimp only
  split <;> simp

theorem notFlags_draws {w : Nat} (s : State) (r : BitVec w) : (s.notFlags r).draws = s.draws := by
  unfold State.notFlags
  split <;> rfl

theorem notOp8_draws (s : State) (o : Operand Reg8) : (s.notOp8 o).draws = s.draws := by
  rw [State.notOp8, notFlags_draws]
  simp

theorem notOp16_draws (s : State) (o : Operand Reg16) : (s.notOp16 o).draws = s.draws := by
  rw [State.notOp16, notFlags_draws]
  simp

theorem negOp8_draws (s : State) (o : Operand Reg8) : (s.negOp8 o).draws = s.draws := by simp [State.negOp8]
theorem negOp16_draws (s : State) (o : Operand Reg16) : (s.negOp16 o).draws = s.draws := by simp [State.negOp16]
theorem incOp8_draws (s : State) (o : Operand Reg8) : (s.incOp8 o).draws = s.draws := by simp [State.incOp8]
theorem incOp16_draws (s : State) (o : Operand Reg16) : (s.incOp16 o).draws = s.draws := by simp [State.incOp16]
theorem decOp8_draws (s : State) (o : Operand Reg8) : (s.decOp8 o).draws = s.draws := by simp [State.decOp8]
theorem decOp16_draws (s : State) (o : Operand Reg16) : (s.decOp16 o).draws = s.draws := by simp [State.decOp16]
theorem xchg8_draws (s : State) (o : Operand Reg8) (r : Reg8) : (s.xchg8 o r).draws = s.draws := by simp [State.xchg8]
theorem xchg16_draws (s : State) (o : Operand Reg16) (r : Reg16) : (s.xchg16 o r).draws = s.draws := by
  simp [State.xchg16]

theorem branch_draws (s : State) (c : Bool) (d : Word) : (s.branch c d).draws = s.draws := by
  unfold State.branch
  split <;> rfl

/-- No body of a string instruction draws, so the loop draws nothing. -/
theorem stringExec_draws {c : Bool} {body : State → State} (h : ∀ t, (body t).draws = t.draws) (s : State) :
    (s.stringExec c body).draws = s.draws := by
  by_cases hr : s.rep = .none
  · rw [stringExec_once hr, h]
  · rw [stringExec_repeat hr]
    exact stringLoop_keeps (P := fun t => t.draws = s.draws) (fun t ht => (h _).trans ht) _ s rfl

/-! ## Shifts and rotates -/

/-- The flags that `n` steps of a shift or rotate leave undefined (45_shift_rotate.md R420 to R422). -/
def ShiftOp.undefined (op : ShiftOp) (n : Nat) : List FlagName :=
  if n = 0 then [] else (if n = 1 then [] else [.ovf]) ++ if op.isShift then [.af] else []

theorem shiftFlags_undefines {w : Nat} (op : ShiftOp) {n : Nat} (v : BitVec w) (x : BitVec w × Bool) (h : n ≠ 0)
    (hd : t.draws = s.draws) (hf : t.flags = s.flags) (hp : t.params = s.params) :
    Undefines (op.undefined n) s (t.shiftFlags op n v x) := by
  obtain ⟨u, hu, e⟩ := shiftFlags_eq t op n v x
  have h1 : Undefines (if n = 1 then [] else [.ovf]) s u ∧ u.params = s.params ∧
      u.flags.get .af = s.flags.get .af := by
    rcases hu with ⟨hn, rfl⟩ | ⟨hn, rfl⟩
    · rw [if_pos hn]
      exact ⟨Undefines.none hd, hp, by rw [← hf]; rfl⟩
    · rw [if_neg hn]
      have h0 : Undefines [] s (t.setFlags { t.flags with cf := x.2 }) := Undefines.none hd
      have ha : (t.setFlags { t.flags with cf := x.2 }).flags.get .af = s.flags.get .af := by rw [← hf]; rfl
      refine ⟨h0.undefFlag hp List.not_mem_nil (by rw [← hf]; rfl), by simpa using hp, ?_⟩
      rw [State.get_undefFlag_ne _ (by decide), ha]
  obtain ⟨hu1, hp1, ha⟩ := h1
  have hov : ∀ m ∈ (if n = 1 then [] else [FlagName.ovf]), m = .ovf := by split <;> simp
  rw [e, ShiftOp.undefined, if_neg h]
  cases op.isShift
  · simpa using hu1
  · simp only [if_true]
    have h2 := hu1.setFlags (f := u.flags.setSZP x.1) fun m hm => by rw [hov m hm]; rfl
    exact h2.undefFlag hp1 (fun hm => nomatch hov _ hm) ha

theorem shift8_undefines (s : State) (op : ShiftOp) (m : Rm Reg8) (n : Nat) (h : op.undefined n = ns) :
    Undefines ns s ((s.decoded m).shift8 op (s.operand m) n) := by
  subst h
  unfold State.shift8
  dsimp only
  split
  · next hn =>
    subst hn
    exact Undefines.none (by simp)
  · next hn => exact shiftFlags_undefines op _ _ hn (by simp) (by simp) (by simp)

theorem shift16_undefines (s : State) (op : ShiftOp) (m : Rm Reg16) (n : Nat) (h : op.undefined n = ns) :
    Undefines ns s ((s.decoded m).shift16 op (s.operand m) n) := by
  subst h
  unfold State.shift16
  dsimp only
  split
  · next hn =>
    subst hn
    exact Undefines.none (by simp)
  · next hn => exact shiftFlags_undefines op _ _ hn (by simp) (by simp) (by simp)

/-- What a rotate by CL leaves undefined. -/
theorem undefined_rotate {op : ShiftOp} (h : op.isShift = false) (c : Byte) :
    op.undefined c.toNat = if c.toNat > 1 then [.ovf] else [] := by
  unfold ShiftOp.undefined
  rcases (show c.toNat = 0 ∨ c.toNat = 1 ∨ c.toNat > 1 by omega) with h0 | h1 | h2
  · simp [h0]
  · simp [h1, h]
  · simp [h, h2, show c.toNat ≠ 0 by omega, show c.toNat ≠ 1 by omega]

/-- What a shift by CL leaves undefined. -/
theorem undefined_shift {op : ShiftOp} (h : op.isShift = true) (c : Byte) :
    op.undefined c.toNat = if c.toNat > 1 then [.ovf, .af] else if c = 1 then [.af] else [] := by
  have hc : c = 1#8 ↔ c.toNat = 1 := by rw [BitVec.toNat_eq]; rfl
  unfold ShiftOp.undefined
  rcases (show c.toNat = 0 ∨ c.toNat = 1 ∨ c.toNat > 1 by omega) with h0 | h1 | h2
  · simp [hc, h0]
  · simp [hc, h1, h]
  · simp [h, h2, show c.toNat ≠ 0 by omega, show c.toNat ≠ 1 by omega]

/-! ## Multiply, divide, decimal adjust -/

/-- A multiply sets CF and OF and leaves the other arithmetic flags undefined (42_muldiv_bcd.md R301, R302). -/
theorem mulFlags_undefines (c : Bool) (hd : t.draws = s.draws) (hf : t.flags = s.flags) (hp : t.params = s.params) :
    Undefines [.sf, .zf, .af, .pf] s (t.mulFlags c) :=
  undefFlags_undefines _ hd hp (by decide) fun n hn => by
    rw [← hf]
    cases n
    case sf | zf | af | pf => rfl
    all_goals simp at hn

/-- A divide that is no divide error leaves every arithmetic flag undefined (42_muldiv_bcd.md R303, R304). -/
theorem divFlags_undefines (hd : t.draws = s.draws) (hf : t.flags = s.flags) (hp : t.params = s.params) :
    Undefines [.cf, .ovf, .sf, .zf, .af, .pf] s t.divFlags :=
  undefFlags_undefines _ hd hp (by decide) fun _ _ => by rw [hf]

theorem div8_undefines (s : State) (m : Rm Reg8) :
    Undefines (if s.div8Faults (s.rmByte m) then [] else [.cf, .ovf, .sf, .zf, .af, .pf]) s
      ((s.loaded8 m).div8 (s.rmByte m)) := by
  rcases loaded8_div8_cases s m with ⟨hf, e⟩ | ⟨hf, -, -⟩
  · rw [hf, e]
    exact Undefines.none (by simp)
  · have h : (s.loaded8 m).div8Faults (s.rmByte m) = false := by simpa [State.div8Faults] using hf
    rw [hf, State.div8_eq h]
    exact divFlags_undefines (by simp) (by simp) (by simp)

theorem div16_undefines (s : State) (m : Rm Reg16) :
    Undefines (if s.div16Faults (s.rmWord m) then [] else [.cf, .ovf, .sf, .zf, .af, .pf]) s
      ((s.loaded16 m).div16 (s.rmWord m)) := by
  rcases loaded16_div16_cases s m with ⟨hf, e⟩ | ⟨hf, -, -⟩
  · rw [hf, e]
    exact Undefines.none (by simp)
  · have h : (s.loaded16 m).div16Faults (s.rmWord m) = false := by simpa [State.div16Faults] using hf
    rw [hf, State.div16_eq h]
    exact divFlags_undefines (by simp) (by simp) (by simp)

theorem idiv8_undefines (s : State) (m : Rm Reg8) :
    Undefines (if s.idiv8Faults (s.rmByte m) then [] else [.cf, .ovf, .sf, .zf, .af, .pf]) s
      ((s.loaded8 m).idiv8 (s.rmByte m)) := by
  rcases loaded8_idiv8_cases s m with ⟨hf, e⟩ | ⟨hf, -, -⟩
  · rw [hf, e]
    exact Undefines.none (by simp)
  · have h : (s.loaded8 m).idiv8Faults (s.rmByte m) = false := by
      simpa [State.idiv8Faults, State.idivOverflows, State.idivLeast] using hf
    rw [hf, State.idiv8_eq h]
    exact divFlags_undefines (by simp) (by simp) (by simp)

theorem idiv16_undefines (s : State) (m : Rm Reg16) :
    Undefines (if s.idiv16Faults (s.rmWord m) then [] else [.cf, .ovf, .sf, .zf, .af, .pf]) s
      ((s.loaded16 m).idiv16 (s.rmWord m)) := by
  rcases loaded16_idiv16_cases s m with ⟨hf, e⟩ | ⟨hf, -, -⟩
  · rw [hf, e]
    exact Undefines.none (by simp)
  · have h : (s.loaded16 m).idiv16Faults (s.rmWord m) = false := by
      simpa [State.idiv16Faults, State.idivOverflows, State.idivLeast, State.dxAx] using hf
    rw [hf, State.idiv16_eq h]
    exact divFlags_undefines (by simp) (by simp) (by simp)

theorem decimalAdd_undefines (s : State) : Undefines [.ovf] s s.decimalAdd :=
  undefFlags_undefines [.ovf] rfl rfl (by decide) fun n hn => by rw [List.mem_singleton.mp hn]; rfl

theorem decimalSub_undefines (s : State) : Undefines [.ovf] s s.decimalSub :=
  undefFlags_undefines [.ovf] rfl rfl (by decide) fun n hn => by rw [List.mem_singleton.mp hn]; rfl

theorem asciiAdjust_undefines (s : State) (al ah : Byte) : Undefines [.ovf, .sf, .zf, .pf] s (s.asciiAdjust al ah) :=
  undefFlags_undefines _ rfl rfl (by decide) fun n hn => by
    cases n
    case ovf | sf | zf | pf => rfl
    all_goals simp at hn

theorem asciiJoin_undefines (s : State) (b : Byte) : Undefines [.ovf, .af, .cf] s (s.asciiJoin b) :=
  undefFlags_undefines _ rfl rfl (by decide) fun n hn => by
    cases n
    case ovf | af | cf => rfl
    all_goals simp at hn

theorem asciiSplit_undefines (s : State) {b : Byte} (h : b ≠ 0) : Undefines [.ovf, .af, .cf] s (s.asciiSplit b) := by
  rw [State.asciiSplit_eq s h]
  refine undefFlags_undefines _ rfl rfl (by decide) fun n hn => ?_
  cases n
  case ovf | af | cf => rfl
  all_goals simp at hn

/-! ## All instructions -/

/-- Every instruction leaves undefined the flags the statements list, family by family. -/
theorem exec_undefines (i : Instr) (s : State) :
    ∃ t, exec i s = .next t ∧ Undefines (s.undefinedFlags i) s t := by
  cases i
  case addEbGb m r | orEbGb m r | adcEbGb m r | sbbEbGb m r | andEbGb m r | subEbGb m r | xorEbGb m r
    | cmpEbGb m r | addEbIb m i | orEbIb m i | adcEbIb m i | sbbEbIb m i | andEbIb m i | subEbIb m i
    | xorEbIb m i | cmpEbIb m i =>
    exact ⟨_, rfl, Undefines.none ((alu8_draws _ _ _ _).trans (s.decoded_draws m))⟩
  case addEvGv m r | orEvGv m r | adcEvGv m r | sbbEvGv m r | andEvGv m r | subEvGv m r | xorEvGv m r
    | cmpEvGv m r | addEvIv m i | orEvIv m i | adcEvIv m i | sbbEvIv m i | andEvIv m i | subEvIv m i
    | xorEvIv m i | cmpEvIv m i | addEvSb m i | orEvSb m i | adcEvSb m i | sbbEvSb m i | andEvSb m i
    | subEvSb m i | xorEvSb m i | cmpEvSb m i =>
    exact ⟨_, rfl, Undefines.none ((alu16_draws _ _ _ _).trans (s.decoded_draws m))⟩
  case addGbEb r m | orGbEb r m | adcGbEb r m | sbbGbEb r m | andGbEb r m | subGbEb r m | xorGbEb r m
    | cmpGbEb r m =>
    exact ⟨_, rfl, Undefines.none ((alu8_draws _ _ _ _).trans (s.loaded8_draws m))⟩
  case addGvEv r m | orGvEv r m | adcGvEv r m | sbbGvEv r m | andGvEv r m | subGvEv r m | xorGvEv r m
    | cmpGvEv r m =>
    exact ⟨_, rfl, Undefines.none ((alu16_draws _ _ _ _).trans (s.loaded16_draws m))⟩
  case addAlIb i | orAlIb i | adcAlIb i | sbbAlIb i | andAlIb i | subAlIb i | xorAlIb i | cmpAlIb i =>
    exact ⟨_, rfl, Undefines.none (alu8_draws _ _ _ _)⟩
  case addAxIv i | orAxIv i | adcAxIv i | sbbAxIv i | andAxIv i | subAxIv i | xorAxIv i | cmpAxIv i =>
    exact ⟨_, rfl, Undefines.none (alu16_draws _ _ _ _)⟩
  case testEbGb m r | testEbIb m i | movGbEb r m =>
    exact ⟨_, rfl, Undefines.none (s.loaded8_draws m)⟩
  case testEvGv m r | testEvIv m i | movGvEv r m | movSwEw g m | jmpEv m | callEv m | pushEv m =>
    exact ⟨_, rfl, Undefines.none (s.loaded16_draws m)⟩
  case notEb m =>
    exact ⟨_, rfl, Undefines.none ((notOp8_draws _ _).trans (s.decoded_draws m))⟩
  case notEv m =>
    exact ⟨_, rfl, Undefines.none ((notOp16_draws _ _).trans (s.decoded_draws m))⟩
  case negEb m =>
    exact ⟨_, rfl, Undefines.none ((negOp8_draws _ _).trans (s.decoded_draws m))⟩
  case negEv m =>
    exact ⟨_, rfl, Undefines.none ((negOp16_draws _ _).trans (s.decoded_draws m))⟩
  case incEb m =>
    exact ⟨_, rfl, Undefines.none ((incOp8_draws _ _).trans (s.decoded_draws m))⟩
  case incEv m =>
    exact ⟨_, rfl, Undefines.none ((incOp16_draws _ _).trans (s.decoded_draws m))⟩
  case incR16 r =>
    exact ⟨_, rfl, Undefines.none (incOp16_draws _ _)⟩
  case decEb m =>
    exact ⟨_, rfl, Undefines.none ((decOp8_draws _ _).trans (s.decoded_draws m))⟩
  case decEv m =>
    exact ⟨_, rfl, Undefines.none ((decOp16_draws _ _).trans (s.decoded_draws m))⟩
  case decR16 r =>
    exact ⟨_, rfl, Undefines.none (decOp16_draws _ _)⟩
  case movEbGb m r | movEbIb m i =>
    exact ⟨_, rfl, Undefines.none ((State.writeOp8_draws _ _ _).trans (s.decoded_draws m))⟩
  case movEvGv m r | movEvIv m i | movEwSw m g | popEv m =>
    exact ⟨_, rfl, Undefines.none ((State.writeOp16_draws _ _ _).trans (s.decoded_draws m))⟩
  case xchgEbGb m r =>
    exact ⟨_, rfl, Undefines.none ((xchg8_draws _ _ _).trans (s.decoded_draws m))⟩
  case xchgEvGv m r =>
    exact ⟨_, rfl, Undefines.none ((xchg16_draws _ _ _).trans (s.decoded_draws m))⟩
  case xchgAxR16 r =>
    exact ⟨_, rfl, Undefines.none (xchg16_draws _ _ _)⟩
  case lea r p =>
    exact ⟨_, rfl, Undefines.none (s.decodedMem_draws p)⟩
  case lds r p | les r p =>
    exact ⟨_, rfl, Undefines.none (by simp [State.loadFar])⟩
  case jmpMp p =>
    exact ⟨_, rfl, Undefines.none (by simp [State.jumpPtr, State.jumpFar])⟩
  case callMp p =>
    exact ⟨_, rfl, Undefines.none (by simp [State.callPtr, State.callFarTo, State.jumpFar])⟩
  case esc k q m | invalidSub b q m =>
    exact ⟨_, rfl, Undefines.none (s.decoded_draws m)⟩
  case jo d | jno d | jb d | jae d | je d | jne d | jbe d | ja d | js d | jns d | jp d | jnp d | jl d
    | jge d | jle d | jg d | jcxz d =>
    exact ⟨_, rfl, Undefines.none (branch_draws _ _ _)⟩
  case loopJb d | loopz d | loopnz d =>
    exact ⟨_, rfl, Undefines.none (branch_draws s.countDown _ _)⟩
  case movsb | movsw | cmpsb | cmpsw | stosb | stosw | lodsb | lodsw | scasb | scasw =>
    exact ⟨_, rfl, Undefines.none (stringExec_draws (fun _ => by rfl) s)⟩
  case mulEb m | mulEv m | imulEb m | imulEv m =>
    exact ⟨_, rfl, mulFlags_undefines _ (by simp) (by simp) (by simp)⟩
  case divEb m =>
    exact ⟨_, rfl, div8_undefines s m⟩
  case divEv m =>
    exact ⟨_, rfl, div16_undefines s m⟩
  case idivEb m =>
    exact ⟨_, rfl, idiv8_undefines s m⟩
  case idivEv m =>
    exact ⟨_, rfl, idiv16_undefines s m⟩
  case daa =>
    exact ⟨_, rfl, decimalAdd_undefines s⟩
  case das =>
    exact ⟨_, rfl, decimalSub_undefines s⟩
  case aaa | aas =>
    exact ⟨_, rfl, asciiAdjust_undefines s _ _⟩
  case aad i =>
    exact ⟨_, rfl, asciiJoin_undefines s i⟩
  case rolEb1 m | rorEb1 m | rclEb1 m | rcrEb1 m | shlEb1 m | shrEb1 m | sarEb1 m =>
    exact ⟨_, rfl, shift8_undefines s _ m _ rfl⟩
  case rolEv1 m | rorEv1 m | rclEv1 m | rcrEv1 m | shlEv1 m | shrEv1 m | sarEv1 m =>
    exact ⟨_, rfl, shift16_undefines s _ m _ rfl⟩
  case rolEbCl m | rorEbCl m | rclEbCl m | rcrEbCl m =>
    exact ⟨_, rfl, shift8_undefines s _ m _ (undefined_rotate rfl _)⟩
  case rolEvCl m | rorEvCl m | rclEvCl m | rcrEvCl m =>
    exact ⟨_, rfl, shift16_undefines s _ m _ (undefined_rotate rfl _)⟩
  case shlEbCl m | shrEbCl m | sarEbCl m =>
    exact ⟨_, rfl, shift8_undefines s _ m _ (undefined_shift rfl _)⟩
  case shlEvCl m | shrEvCl m | sarEvCl m =>
    exact ⟨_, rfl, shift16_undefines s _ m _ (undefined_shift rfl _)⟩
  case aam i =>
    refine ⟨_, rfl, ?_⟩
    by_cases h : i = 0#8
    · subst h
      exact Undefines.none (State.serviceInterrupt_draws s 0)
    · show Undefines (if i = 0 then [] else [.ovf, .af, .cf]) s (s.asciiSplit i)
      simpa [h] using asciiSplit_undefines s h
  case into =>
    refine ⟨_, rfl, Undefines.none ?_⟩
    show (if s.flags.ovf then s.serviceInterrupt 4 else s).draws = s.draws
    split <;> simp
  all_goals exact ⟨_, rfl, Undefines.none rfl⟩

/-- Settles O59: the flags an instruction touches, and those it leaves undefined. -/
theorem flagFrame : Obligations.FlagFrame := by
  unfold Obligations.FlagFrame
  intro i s t h
  obtain ⟨u, hu, hk⟩ := exec_undefines i s
  rw [h] at hu
  cases hu
  exact ⟨(Within.of_exec h).flag, hk.keep, hk.draw⟩

end Sys2Proof.Machine
end

section
/-! Words of the spec, the state after reset, effective addresses, the bus and the packed flags (30_encoding.md;
10_state.md; 20_memory.md; 70_reset_and_hazards.md). -/

namespace Sys2Proof.Machine

/-! ## Encoding and reset -/

/-- Settles O1: each word is decoded. -/
theorem decodesSpecWords : Obligations.DecodesSpecWords := by
  unfold Obligations.DecodesSpecWords
  exact ⟨rfl, rfl, rfl, rfl, rfl, rfl, rfl, rfl, rfl, rfl, rfl, rfl, rfl, rfl, rfl, rfl, rfl⟩

/-- Settles O7: nothing is listed at reset. -/
theorem resetMemoryForm : Obligations.ResetMemoryForm := wf_reset

/-- Settles O6: field by field. -/
theorem resetState : Obligations.ResetState := by
  unfold Obligations.ResetState
  refine ⟨fun gpr => ?_, rfl⟩
  refine ⟨rfl, rfl, rfl, rfl, rfl, fun _ => rfl, fun n => ?clear,
    show Flags.clear.pack 0xF002 = 0xF002 by decide, rfl, rfl, rfl, rfl, rfl, rfl, rfl, rfl, rfl, rfl, rfl, rfl, rfl,
    fun _ => ⟨rfl, rfl⟩⟩
  case clear => cases n <;> rfl

/-- The addresses of the sixteen bytes from the reset entry point on, up to the top of the space. -/
theorem phys_resetEntry (k : Word) (h : k.toNat ≤ 0xF) : (phys 0xFFFF k).toNat = 0xFFFF0 + k.toNat := by
  rw [phys_toNat]
  show (0xFFFF * 16 + k.toNat) % 2 ^ 20 = _
  omega

/-- Settles O5: nothing is served at the poll, and CS:IP is FFFF:0000. -/
theorem resetEntryPoint : Obligations.ResetEntryPoint := by
  unfold Obligations.ResetEntryPoint
  refine ⟨fun b => ⟨⟨rfl, rfl, rfl⟩, rfl⟩, fun k hk => ?_, rfl⟩
  have e : State.reset.ip + k = k := BitVec.zero_add k
  rw [e]
  exact phys_resetEntry k hk

/-! ## The bus -/

/-- A read of a byte that memory holds is one call and nothing else. -/
theorem State.afterReadByte_bus_of_memByte {s : State} {a : PAddr} {v : Byte} (h : s.memByte a = some v) :
    (s.afterReadByte a).bus = { s.bus with calls := .readByte a v :: s.bus.calls } := by
  rw [State.afterReadByte, State.readByte_of_memByte h, Bus.answered_of_memByte h]
  rfl

/-- A read of a byte that no memory holds takes the host's next answer. -/
theorem State.afterReadByte_bus_of_memIn {s : State} {a : PAddr} {v : Byte} {vs : List Byte} (h : s.memByte a = none)
    (hi : s.bus.memIn = v :: vs) : s.readByte a = v ∧
      (s.afterReadByte a).bus = { s.bus with memIn := vs, calls := .readByte a v :: s.bus.calls } := by
  have hb : s.bus.memByte a = none := h
  have hr : s.readByte a = v := by simp [State.readByte, Bus.answer, hb, Bus.oracle, hi]
  refine ⟨hr, ?_⟩
  rw [State.afterReadByte, hr]
  simp [Bus.answered, hb, hi, Bus.note]

/-- A read of a byte that no memory holds, no answer being ready, is a free value. -/
theorem State.afterReadByte_bus_of_free {s : State} {a : PAddr} (h : s.memByte a = none) (hi : s.bus.memIn = []) :
    s.readByte a = Config.freeMemByte s.bus.draws ∧
    (s.afterReadByte a).bus = { s.bus with
      draws := s.bus.draws + 1, calls := .readByte a (Config.freeMemByte s.bus.draws) :: s.bus.calls } := by
  have hb : s.bus.memByte a = none := h
  have hr : s.readByte a = Config.freeMemByte s.bus.draws := by
    simp [State.readByte, Bus.answer, hb, Bus.oracle, hi]
  refine ⟨hr, ?_⟩
  rw [State.afterReadByte, hr]
  simp [Bus.answered, hb, hi, Bus.note]

/-- No memory stands behind a device. -/
theorem State.memByte_device {s : State} {a : PAddr} (h : s.kindAt a = .device) : s.memByte a = none := by
  have hk : s.bus.kindAt a = .device := h
  simp [State.memByte, Bus.memByte, hk]

/-- A word is read as its two bytes, low first. -/
theorem State.readWord_toNat (s : State) (a : PAddr) :
    (s.readWord a).toNat = (s.readByte a).toNat + 256 * ((s.afterReadByte a).readByte (a + 1)).toNat :=
  leWord_toNat _ _

theorem lowByte_eq_ofNat (v : Word) : lowByte v = BitVec.ofNat 8 v.toNat :=
  BitVec.eq_of_toNat_eq (by simp)

theorem highByte_eq_ofNat (v : Word) : highByte v = BitVec.ofNat 8 (v.toNat / 256) := by
  apply BitVec.eq_of_toNat_eq
  have hv := v.isLt
  rw [highByte_toNat, BitVec.toNat_ofNat]
  omega

/-- Two bytes written one after the other to RAM are read back as a word. -/
theorem State.readWord_writeByte_writeByte {s : State} {a : PAddr} (lo hi : Byte) (h : s.RamWord a) :
    (((s.writeByte a lo).writeByte (a + 1) hi).readWord a) = leWord lo hi := by
  obtain ⟨h0, h1⟩ := h
  apply State.readWord_of_memByte
  · have hne : a ≠ a + 1 := PAddr.ne_succ a
    rw [State.memByte_writeByte_ne _ _ hne, State.memByte_writeByte_ram _ _ h0]
  · exact State.memByte_writeByte_ram _ _ h1

/-- Settles O10: clause by clause, from what a store and an answer of the bus are. -/
theorem memoryReadAfterWrite : Obligations.MemoryReadAfterWrite := by
  unfold Obligations.MemoryReadAfterWrite
  refine ⟨State.memByte_writeByte, fun s a b v => ?word, fun s a v h => ?held,
    fun s a v vs => State.afterReadByte_bus_of_memIn, fun s a => State.afterReadByte_bus_of_free,
    fun s a => State.memByte_device, fun s a => ⟨s.readWord_toNat a, rfl⟩, fun s a lo hi h => ?bytes,
    fun s a v h => (holdsWord_writeWord s a v).readWord h, fun s a v w => ⟨rfl, rfl⟩, fun s => s.readWord_toNat _⟩
  case word =>
    rw [State.memByte_writeWord, ← lowByte_eq_ofNat, ← highByte_eq_ofNat]
    by_cases h : b = a
    · subst h
      rw [if_neg fun e => PAddr.ne_succ b e.1]
      by_cases k : s.kindAt b = .ram
      · rw [if_pos ⟨rfl, k⟩, if_pos ⟨rfl, k⟩]
      · rw [if_neg fun e => k e.2, if_neg fun e => k e.2, if_neg fun e => PAddr.ne_succ b e.1]
    · simp [h]
  case held => exact ⟨State.readByte_of_memByte h, State.afterReadByte_bus_of_memByte h⟩
  case bytes => rw [State.readWord_writeByte_writeByte lo hi h, leWord_toNat]

/-! ## Effective addresses -/

/-- The base and index registers' sum, unbounded (30_encoding.md R128). -/
def State.baseNat (s : State) (b : BaseIdx) : Nat :=
  match b with
  | .bxSi => (s.r16 .bx).toNat + (s.r16 .si).toNat
  | .bxDi => (s.r16 .bx).toNat + (s.r16 .di).toNat
  | .bpSi => (s.r16 .bp).toNat + (s.r16 .si).toNat
  | .bpDi => (s.r16 .bp).toNat + (s.r16 .di).toNat
  | .si => (s.r16 .si).toNat
  | .di => (s.r16 .di).toNat
  | .bp => (s.r16 .bp).toNat
  | .bx => (s.r16 .bx).toNat

theorem State.baseSum_toNat (s : State) (b : BaseIdx) : (s.baseSum b).toNat = s.baseNat b % 2 ^ 16 := by
  cases b
  case si | di | bp | bx => exact (Nat.mod_eq_of_lt (BitVec.isLt _)).symm
  all_goals exact BitVec.toNat_add _ _

/-- A word plus a sign-extended byte, unbounded (30_encoding.md R129). -/
theorem add_sext16_toNat (v : Word) (d : Byte) :
    ((v + sext16 d).toNat : Int) = ((v.toNat : Int) + d.toInt) % 2 ^ 16 := by
  rw [add_sext16_eq_ofInt, BitVec.toNat_ofInt]
  exact Int.toNat_of_nonneg (Int.emod_nonneg _ (by decide))

theorem State.ea_disp8_toNat (s : State) (b : BaseIdx) (d : Byte) :
    ((s.ea (.disp8 b d)).toNat : Int) = ((s.baseNat b : Int) + d.toInt) % 2 ^ 16 := by
  rw [State.ea, add_sext16_toNat, State.baseSum_toNat]
  push_cast
  rw [Int.emod_add_emod]

theorem State.ea_disp16_toNat (s : State) (b : BaseIdx) (e : Word) :
    (s.ea (.disp16 b e)).toNat = (s.baseNat b + e.toNat) % 2 ^ 16 := by
  rw [State.ea, BitVec.toNat_add, State.baseSum_toNat, Nat.mod_add_mod]

/-- Settles O11: the sum with its displacement, and the decoder's choice of segment. -/
theorem effectiveAddress : Obligations.EffectiveAddress := by
  unfold Obligations.EffectiveAddress
  refine ⟨fun s b d e => ⟨s.baseSum_toNat b, s.ea_disp8_toNat b d, s.ea_disp16_toNat b e, rfl⟩, fun s p off => ?_⟩
  · rw [State.decodedMem_dataAddr]
    cases s.segOverride with
    | some g => rfl
    | none =>
      rcases p with b | ⟨b, d⟩ | ⟨b, d⟩ | a
      case direct => rfl
      all_goals cases b <;> rfl

/-! ## The packed flags -/

/-- A flag's word has that one bit (10_state.md R40). -/
theorem flagBit_getLsbD (b : Bool) (j : Nat) {k : Nat} (hk : k < 16) :
    (flagBit b j).getLsbD k = (b && decide (k = j)) := by
  cases b
  · simp [flagBit]
  · rw [Bool.eq_iff_iff]
    simp [flagBit, hk]
    omega

/-- A bit of the packed value: the forced ones, and each flag at its position (10_state.md R40). -/
theorem pack_getLsbD (f : Flags) (forced : Word) {k : Nat} (hk : k < 16) :
    (f.pack forced).getLsbD k = (forced.getLsbD k || match k with
      | 0 => f.cf
      | 2 => f.pf
      | 4 => f.af
      | 6 => f.zf
      | 7 => f.sf
      | 8 => f.tf
      | 9 => f.ief
      | 10 => f.df
      | 11 => f.ovf
      | _ => false) := by
  simp only [Flags.pack, BitVec.getLsbD_or, flagBit_getLsbD _ _ hk]
  interval_cases k <;> simp

/-- A word read through the packed flags keeps its nine flag bits, the forced ones on (10_state.md R40, R41). -/
theorem pack_flagsOfPacked (v forced : Word) : (flagsOfPacked v).pack forced = forced ||| (v &&& 0x0FD5) := by
  apply BitVec.eq_of_getLsbD_eq
  intro k hk
  rw [pack_getLsbD _ _ hk, BitVec.getLsbD_or, BitVec.getLsbD_and]
  interval_cases k <;> simp [flagsOfPacked]

/-- The packed flags written and read back, when no flag bit is forced (10_state.md R40, R41). -/
theorem flagsOfPacked_pack (f : Flags) {forced : Word} (h : forced &&& 0x0FD5 = 0) :
    flagsOfPacked (f.pack forced) = f := by
  have off : ∀ k, (0x0FD5#16).getLsbD k = true → forced.getLsbD k = false := fun k hk => by
    have bit : (forced &&& 0x0FD5#16).getLsbD k = (0#16).getLsbD k := congrArg (·.getLsbD k) h
    simpa [hk] using bit
  have bit := fun k (hk : k < 16) (hm : (0x0FD5#16).getLsbD k = true) =>
    (pack_getLsbD f forced hk).trans (congrArg (· || _) (off k hm))
  rw [flagsOfPacked, bit 0 (by decide) rfl, bit 2 (by decide) rfl, bit 4 (by decide) rfl, bit 6 (by decide) rfl,
    bit 7 (by decide) rfl, bit 8 (by decide) rfl, bit 9 (by decide) rfl, bit 10 (by decide) rfl,
    bit 11 (by decide) rfl]
  rfl

/-- Settles O13: bit by bit. -/
theorem packedRead : Obligations.PackedRead := by
  unfold Obligations.PackedRead
  refine ⟨fun f forced => flagsOfPacked_pack f, pack_flagsOfPacked, fun f => ?_⟩
  apply BitVec.eq_of_getLsbD_eq
  intro k hk
  rw [BitVec.getLsbD_and, pack_getLsbD _ _ hk]
  interval_cases k <;> simp

end Sys2Proof.Machine
end

section
/-! The addition, subtraction and logic cores against arithmetic on unbounded numbers (41_arith_logic.md section 1;
10_state.md section 4). -/

namespace Sys2Proof.Machine

variable {w : Nat}

/-! ## Parity -/

/-- The number of elements that `f` takes is odd exactly when `f`'s answers add up so. -/
theorem countP_odd (f : Nat → Bool) (l : List Nat) :
    decide (l.countP f % 2 = 1) = l.foldr (fun i b => f i ^^ b) false := by
  induction l with
  | nil => rfl
  | cons x l ih =>
    rw [List.foldr_cons, ← ih, List.countP_cons]
    cases f x
    · simp
    · rw [Bool.eq_iff_iff]
      simp
      omega

/-- PF counts the 1 bits of the low byte (10_state.md R42). -/
theorem evenParity_eq (v : BitVec w) : evenParity v = decide (((List.range 8).countP v.toNat.testBit) % 2 = 0) := by
  have odd : decide (((List.range 8).countP v.toNat.testBit) % 2 = 1) = !evenParity v := by
    rw [countP_odd]
    simp [evenParity, BitVec.getLsbD, show List.range 8 = [0, 1, 2, 3, 4, 5, 6, 7] from rfl]
  rw [← Bool.not_not (evenParity v), ← odd, Bool.eq_iff_iff]
  simp

/-- The low byte of a number reduced to a width of 8 or more is the number's own. -/
theorem countP_testBit_mod (h : 8 ≤ w) (n : Nat) :
    (List.range 8).countP (n % 2 ^ w).testBit = (List.range 8).countP n.testBit := by
  refine List.countP_congr fun i hi => ?_
  have hi8 : i < w := by have := List.mem_range.mp hi; omega
  simp [Nat.testBit_mod_two_pow, hi8]

/-! ## Bit 4 -/

theorem and_sixteen_bne_zero (n : Nat) : ((n &&& 0x10) != 0) = n.testBit 4 := by
  rw [show (0x10 : Nat) = 2 ^ 4 from rfl, Nat.and_two_pow]
  cases n.testBit 4 <;> rfl

/-- AF is bit 4 of the operands and the result, added without carry (10_state.md R47). -/
theorem adjustCarry_eq (h : 5 ≤ w) (a b r : BitVec w) :
    adjustCarry a b r = (a.toNat ^^^ b.toNat ^^^ r.toNat).testBit 4 := by
  have h16 : (0x10#w).toNat = 0x10 := by
    rw [BitVec.toNat_ofNat]
    exact Nat.mod_eq_of_lt (lt_of_lt_of_le (by decide) (Nat.pow_le_pow_right (by decide) h))
  rw [← and_sixteen_bne_zero, adjustCarry, Bool.eq_iff_iff]
  simp [BitVec.toNat_eq, h16]

/-! ## Addition -/

/-- The unbounded sum as a natural number. -/
theorem addRaw_eq (a b : BitVec w) (c : Bool) : addRaw a b c = ((a.toNat + b.toNat + c.toNat : Nat) : Int) := by
  rw [addRaw]
  push_cast
  rfl

theorem addResult_toNat (a b : BitVec w) (c : Bool) :
    (addResult a b c).toNat = (a.toNat + b.toNat + c.toNat) % 2 ^ w := by
  rw [addResult, addRaw_eq, BitVec.ofInt_natCast, BitVec.toNat_ofNat]

theorem subResult_toNat (a b : BitVec w) (c : Bool) :
    (subResult a b c).toNat = (((a.toNat : Int) - b.toNat - c.toNat) % 2 ^ w).toNat := by
  rw [subResult, subRaw, BitVec.toNat_ofInt]
  push_cast
  rfl

theorem subResult_toNat_int (a b : BitVec w) (c : Bool) :
    ((subResult a b c).toNat : Int) = ((a.toNat : Int) - b.toNat - c.toNat) % 2 ^ w := by
  rw [subResult_toNat]
  exact Int.toNat_of_nonneg (Int.emod_nonneg _ (by positivity))

/-- The fields of the addition core's flags (41_arith_logic.md R251). -/
theorem addFlags_eq (mode : AfMode) (a b : BitVec w) (c : Bool) (f : Flags) :
    addFlags mode a b c f = { f with
      zf := addResult a b c == 0, sf := (addResult a b c).msb, pf := evenParity (addResult a b c)
      cf := decide (addRaw a b c > 2 ^ w - 1)
      ovf := (a.msb == b.msb) && ((addResult a b c).msb != a.msb)
      af := if mode = .intel then adjustCarry a b (addResult a b c) else f.af } := by
  cases mode <;> rfl

/-- The fields of the subtraction core's flags (41_arith_logic.md R252). -/
theorem subFlags_eq (mode : AfMode) (a b : BitVec w) (c : Bool) (f : Flags) :
    subFlags mode a b c f = { f with
      zf := subResult a b c == 0, sf := (subResult a b c).msb, pf := evenParity (subResult a b c)
      cf := decide (subRaw a b c < 0)
      ovf := (a.msb != b.msb) && ((subResult a b c).msb == b.msb)
      af := if mode = .intel then adjustCarry a b (subResult a b c) else f.af } := by
  cases mode <;> rfl

/-- ZF, SF and PF of the addition core, from its result (10_state.md R45). -/
theorem addFlags_szp (mode : AfMode) (a b : BitVec w) (c : Bool) (f : Flags) :
    (addFlags mode a b c f).zf = decide (addResult a b c = 0) ∧
    (addFlags mode a b c f).sf = (addResult a b c).msb ∧
    (addFlags mode a b c f).pf = evenParity (addResult a b c) := by
  rw [addFlags_eq]
  exact ⟨beq_eq_decide _ _, rfl, rfl⟩

/-- ZF, SF and PF of the subtraction core, from its result (10_state.md R45). -/
theorem subFlags_szp (mode : AfMode) (a b : BitVec w) (c : Bool) (f : Flags) :
    (subFlags mode a b c f).zf = decide (subResult a b c = 0) ∧
    (subFlags mode a b c f).sf = (subResult a b c).msb ∧
    (subFlags mode a b c f).pf = evenParity (subResult a b c) := by
  rw [subFlags_eq]
  exact ⟨beq_eq_decide _ _, rfl, rfl⟩

theorem beq_zero_eq (r : BitVec w) : (r == 0) = decide (r.toNat = 0) := by
  rw [Bool.eq_iff_iff]
  simp [BitVec.toNat_eq]

/-- Settles O14: the result modulo 2^w, and the flags from it and from the unbounded sum. -/
theorem additionCore : Obligations.AdditionCore := by
  unfold Obligations.AdditionCore
  intro w a b cin mode f hw
  have h8 : 8 ≤ w := by omega
  have hr := addResult_toNat a b cin
  have hp : (1 : Nat) ≤ 2 ^ w := Nat.one_le_two_pow
  dsimp only
  rw [addFlags_eq]
  refine ⟨hr, ?zf, ?sf, ?pf, ?cf, ?ovf, ?af, rfl, rfl, rfl⟩
  case zf => rw [← hr]; exact beq_zero_eq _
  case sf => rw [← hr]; exact BitVec.msb_eq_decide _
  case pf => rw [← countP_testBit_mod h8, ← hr]; exact evenParity_eq _
  case cf =>
    have hz : ((2 : Int) ^ w) = ((2 ^ w : Nat) : Int) := by push_cast; rfl
    rw [addRaw_eq, hz]
    generalize 2 ^ w = p at hp
    rw [Bool.eq_iff_iff, decide_eq_true_iff, decide_eq_true_iff]
    omega
  case ovf => cases a.msb <;> cases b.msb <;> cases (addResult a b cin).msb <;> rfl
  case af =>
    rw [adjustCarry_eq (by omega), and_sixteen_bne_zero, hr]
    simp [Nat.testBit_xor, Nat.testBit_mod_two_pow, show 4 < w by omega]

/-- Settles O15: the result modulo 2^w, and the flags from it and from the unbounded difference. -/
theorem subtractionCore : Obligations.SubtractionCore := by
  unfold Obligations.SubtractionCore
  intro w a b cin mode f hw
  have hr := subResult_toNat_int a b cin
  have hn := subResult_toNat a b cin
  dsimp only
  rw [subFlags_eq]
  refine ⟨hr, ?zf, ?sf, ?pf, rfl, ?ovf, ?af, rfl, rfl, rfl⟩
  case zf => rw [← hr, beq_zero_eq, Bool.eq_iff_iff]; simp
  case sf => rw [← hr, BitVec.msb_eq_decide, Bool.eq_iff_iff, decide_eq_true_iff, decide_eq_true_iff]; norm_cast
  case pf => rw [← hn]; exact evenParity_eq _
  case ovf => cases a.msb <;> cases b.msb <;> cases (subResult a b cin).msb <;> rfl
  case af => rw [adjustCarry_eq (by omega), and_sixteen_bne_zero, hn]

/-! ## Signed overflow and the carry out of bit 3 -/

/-- Bit 4 of three numbers added without carry. -/
theorem testBit_four_xor (x y z : Nat) :
    (x ^^^ y ^^^ z).testBit 4 = true ↔ (x / 16 + y / 16 + z / 16) % 2 = 1 := by
  rw [Nat.testBit_xor, Nat.testBit_xor, Nat.testBit_eq_decide_div_mod_eq, Nat.testBit_eq_decide_div_mod_eq,
    Nat.testBit_eq_decide_div_mod_eq, show 2 ^ 4 = 16 from rfl]
  rcases Nat.mod_two_eq_zero_or_one (x / 16) with hx | hx <;>
    rcases Nat.mod_two_eq_zero_or_one (y / 16) with hy | hy <;>
    simp [hx, hy] <;> omega

/-- OF of an addition is the signed overflow (10_state.md R46). -/
theorem addFlags_ovf_iff (mode : AfMode) (a b : BitVec w) (c : Bool) (f : Flags) (hw : w = 8 ∨ w = 16) :
    (addFlags mode a b c f).ovf = true ↔
      a.toInt + b.toInt + c.toNat < -(2 ^ (w - 1)) ∨ a.toInt + b.toInt + c.toNat ≥ 2 ^ (w - 1) := by
  have hc : c.toNat ≤ 1 := Bool.toNat_le c
  have ha := a.isLt
  have hb := b.isLt
  simp only [addFlags_eq, BitVec.msb_eq_decide, addResult_toNat, BitVec.toInt_eq_toNat_cond, Bool.and_eq_true,
    beq_iff_eq, bne_iff_ne, ne_eq, decide_eq_decide]
  rcases hw with rfl | rfl <;> norm_num at ha hb ⊢ <;> split_ifs <;> omega

/-- OF of a subtraction is the signed overflow (10_state.md R46). -/
theorem subFlags_ovf_iff (mode : AfMode) (a b : BitVec w) (c : Bool) (f : Flags) (hw : w = 8 ∨ w = 16) :
    (subFlags mode a b c f).ovf = true ↔
      a.toInt - b.toInt - c.toNat < -(2 ^ (w - 1)) ∨ a.toInt - b.toInt - c.toNat ≥ 2 ^ (w - 1) := by
  have hc : c.toNat ≤ 1 := Bool.toNat_le c
  have ha := a.isLt
  have hb := b.isLt
  simp only [subFlags_eq, BitVec.msb_eq_decide, subResult_toNat, BitVec.toInt_eq_toNat_cond, Bool.and_eq_true,
    beq_iff_eq, bne_iff_ne, ne_eq, decide_eq_decide]
  rcases hw with rfl | rfl <;> norm_num at ha hb ⊢ <;> split_ifs <;> omega

/-- Bit 4 of a sum tells the carry out of bit 3. -/
theorem addFlags_af_iff (a b : BitVec w) (c : Bool) (f : Flags) (hw : w = 8 ∨ w = 16) :
    (addFlags .intel a b c f).af = true ↔ a.toNat % 16 + b.toNat % 16 + c.toNat ≥ 16 := by
  have hc : c.toNat ≤ 1 := Bool.toNat_le c
  simp only [addFlags_eq, if_true, adjustCarry_eq (show 5 ≤ w by omega), testBit_four_xor, addResult_toNat]
  rcases hw with rfl | rfl <;> norm_num <;> omega

/-- Bit 4 of a difference tells the borrow out of bit 3. -/
theorem subFlags_af_iff (a b : BitVec w) (c : Bool) (f : Flags) (hw : w = 8 ∨ w = 16) :
    (subFlags .intel a b c f).af = true ↔ a.toNat % 16 < b.toNat % 16 + c.toNat := by
  have hc : c.toNat ≤ 1 := Bool.toNat_le c
  simp only [subFlags_eq, if_true, adjustCarry_eq (show 5 ≤ w by omega), testBit_four_xor, subResult_toNat]
  rcases hw with rfl | rfl <;> norm_num <;> omega

/-- Settles O16: each flag by the two cores' bits. -/
theorem overflowAndAdjust : Obligations.OverflowAndAdjust := by
  unfold Obligations.OverflowAndAdjust
  intro w a b cin f hw
  exact ⟨addFlags_ovf_iff _ a b cin f hw, subFlags_ovf_iff _ a b cin f hw, addFlags_af_iff a b cin f hw,
    subFlags_af_iff a b cin f hw⟩

/-! ## The logic core and TEST -/

/-- The fields of the logic core's flags (41_arith_logic.md R253). -/
theorem logicFlags_eq (r : BitVec w) (f : Flags) : logicFlags r f = { f with
    cf := false, ovf := false, zf := decide (r.toNat = 0), sf := decide (r.toNat ≥ 2 ^ (w - 1)),
    pf := decide (((List.range 8).countP r.toNat.testBit) % 2 = 0) } := by
  rw [← beq_zero_eq, ← BitVec.msb_eq_decide, ← evenParity_eq]
  rfl

@[simp] theorem State.codeBefore_loaded8 (s : State) (m : Rm Reg8) (k : Word) :
    (s.loaded8 m).codeBefore k = s.codeBefore k := by simp [State.codeBefore]

@[simp] theorem State.codeBefore_loaded16 (s : State) (m : Rm Reg16) (k : Word) :
    (s.loaded16 m).codeBefore k = s.codeBefore k := by simp [State.codeBefore]

theorem exec_testEbGb (m : Rm Reg8) (r : Reg8) (s : State) :
    exec (.testEbGb m r) s = .next ((s.loaded8 m).setFlags (logicFlags (s.rmByte m &&& s.r8 r) s.flags)) := by
  rw [← s.loaded8_flags m]
  rfl

theorem exec_testEbIb (m : Rm Reg8) (i : Byte) (s : State) :
    exec (.testEbIb m i) s = .next ((s.loaded8 m).afterImm8.setFlags (logicFlags (s.rmByte m &&& i) s.flags)) := by
  rw [← s.loaded8_flags m]
  rfl

theorem exec_testEvGv (m : Rm Reg16) (r : Reg16) (s : State) :
    exec (.testEvGv m r) s = .next ((s.loaded16 m).setFlags (logicFlags (s.rmWord m &&& s.r16 r) s.flags)) := by
  rw [← s.loaded16_flags m]
  rfl

theorem exec_testEvIv (m : Rm Reg16) (i : Word) (s : State) :
    exec (.testEvIv m i) s = .next ((s.loaded16 m).afterImm16.setFlags (logicFlags (s.rmWord m &&& i) s.flags)) := by
  rw [← s.loaded16_flags m]
  rfl

/-- Settles O17: the logic core's flags, then each form of TEST with the calls of its operand and its immediate. -/
theorem logicAndTest : Obligations.LogicAndTest := by
  unfold Obligations.LogicAndTest
  refine ⟨fun _ r f _ => logicFlags_eq r f, fun m r i s => ⟨exec_testEbGb m r s, calls_loaded8 s m,
    exec_testEbIb m i s, ?_, rfl⟩, fun m r i s => ⟨exec_testEvGv m r s, calls_loaded16 s m, exec_testEvIv m i s,
    ⟨_, _, rfl, ?_⟩, rfl⟩⟩
  · have h := (calls_loaded8 s m).trans (calls_afterImm8 (s.loaded8 m))
    rwa [State.codeBefore_loaded8] at h
  · have h := (calls_loaded16 s m).trans (calls_afterImm16 (s.loaded16 m))
    rw [State.codeBefore_loaded16, State.codeBefore_loaded16] at h
    rw [State.codeBefore_loaded16, State.codeBefore_loaded16]
    exact h

end Sys2Proof.Machine
end

section
/-! The ALU operations, NOT, NEG, INC and DEC in every form (41_arith_logic.md). -/

namespace Sys2Proof.Machine

variable {w : Nat}

/-! ## The operation of an instruction -/

theorem exec_aluEbGb (op : AluOp) (m : Rm Reg8) (r : Reg8) (s : State) :
    exec (op.instrEbGb m r) s = .next (s.aluEbGb op m r) := by cases op <;> rfl

theorem exec_aluGbEb (op : AluOp) (r : Reg8) (m : Rm Reg8) (s : State) :
    exec (op.instrGbEb r m) s = .next (s.aluGbEb op r m) := by cases op <;> rfl

theorem exec_aluAlIb (op : AluOp) (i : Byte) (s : State) :
    exec (op.instrAlIb i) s = .next (s.aluAlIb op i) := by cases op <;> rfl

theorem exec_aluEbIb (op : AluOp) (m : Rm Reg8) (i : Byte) (s : State) :
    exec (op.instrEbIb m i) s = .next (s.aluEbIb op m i) := by cases op <;> rfl

theorem exec_aluEvGv (op : AluOp) (m : Rm Reg16) (r : Reg16) (s : State) :
    exec (op.instrEvGv m r) s = .next (s.aluEvGv op m r) := by cases op <;> rfl

theorem exec_aluGvEv (op : AluOp) (r : Reg16) (m : Rm Reg16) (s : State) :
    exec (op.instrGvEv r m) s = .next (s.aluGvEv op r m) := by cases op <;> rfl

theorem exec_aluAxIv (op : AluOp) (i : Word) (s : State) :
    exec (op.instrAxIv i) s = .next (s.aluAxIv op i) := by cases op <;> rfl

theorem exec_aluEvIv (op : AluOp) (m : Rm Reg16) (i : Word) (s : State) :
    exec (op.instrEvIv m i) s = .next (s.aluEvIv op m i) := by cases op <;> rfl

theorem exec_aluEvSb (op : AluOp) (m : Rm Reg16) (i : Byte) (s : State) :
    exec (op.instrEvSb m i) s = .next (s.aluEvSb op m i) := by cases op <;> rfl

/-! ## ALU operations of a byte (41_arith_logic.md R250) -/

/-- An r/m byte operand read, then flags set, then the operand written. -/
theorem rewriteOp8_leaves (s : State) (m : Rm Reg8) (f : Flags) (v : Byte) :
    (((s.loaded8 m).setFlags f).writeOp8 (s.operand m) v).flags = f ∧
    s.RmHolds8 (((s.loaded8 m).setFlags f).writeOp8 (s.operand m) v) m v ∧
    s.Calls (((s.loaded8 m).setFlags f).writeOp8 (s.operand m) v) (s.rmWrites8 m v ++ s.rmReads8 m) :=
  ⟨State.writeOp8_flags _ _ _, rmHolds8_writeOp8 s m _ (by simp),
    (calls_loaded8 s m).trans (calls_writeOp8 (t := (s.loaded8 m).setFlags f) s m _ (by simp))⟩

/-- What an ALU operation leaves of an r/m byte destination: flags, result and the calls of the bus. -/
theorem alu8_leaves (s : State) (op : AluOp) (m : Rm Reg8) (b : Byte) :
    ((s.decoded m).alu8 op (s.operand m) b).flags = op.flags s.params.afMode (s.rmByte m) b s.flags ∧
    (op ≠ .cmp → s.RmHolds8 ((s.decoded m).alu8 op (s.operand m) b) m
      (op.result (s.rmByte m) b s.flags.cf)) ∧
    s.Calls ((s.decoded m).alu8 op (s.operand m) b)
      ((if op = .cmp then [] else s.rmWrites8 m (op.result (s.rmByte m) b s.flags.cf)) ++ s.rmReads8 m) := by
  have hp := s.decoded_params m
  have hf := s.decoded_flags m
  by_cases hc : op = .cmp
  · subst hc
    rw [alu8_cmp, hp, hf]
    exact ⟨rfl, fun h => absurd rfl h, calls_loaded8 s m⟩
  · have hb : op.writesBack = true := by simpa [AluOp.writesBack] using hc
    rw [State.alu8, if_pos hb, hp, hf, if_neg hc]
    obtain ⟨h1, h2, h3⟩ := rewriteOp8_leaves s m _ (op.result (s.rmByte m) b s.flags.cf)
    exact ⟨h1, fun _ => h2, h3⟩

/-- What an ALU operation leaves of a byte register. -/
theorem alu8_reg_leaves (s : State) (op : AluOp) (r : Reg8) (b : Byte) :
    (s.alu8 op (.reg r) b).flags = op.flags s.params.afMode (s.r8 r) b s.flags ∧
    (s.alu8 op (.reg r) b).r8 r = op.stores (s.r8 r) b s.flags.cf := by
  by_cases hc : op = .cmp
  · subst hc
    exact ⟨rfl, rfl⟩
  · have hb : op.writesBack = true := by simpa [AluOp.writesBack] using hc
    rw [State.alu8, if_pos hb, AluOp.stores, if_neg hc]
    exact ⟨rfl, State.r8_setR8_self _ _ _⟩

/-- The same after the byte operand of the source is read. -/
theorem alu8_reg_loaded_leaves (s : State) (op : AluOp) (r : Reg8) (m : Rm Reg8) :
    ((s.loaded8 m).alu8 op (.reg r) (s.rmByte m)).flags
      = op.flags s.params.afMode (s.r8 r) (s.rmByte m) s.flags ∧
    ((s.loaded8 m).alu8 op (.reg r) (s.rmByte m)).r8 r = op.stores (s.r8 r) (s.rmByte m) s.flags.cf ∧
    s.Calls ((s.loaded8 m).alu8 op (.reg r) (s.rmByte m)) (s.rmReads8 m) := by
  obtain ⟨hf, hr⟩ := alu8_reg_leaves (s.loaded8 m) op r (s.rmByte m)
  rw [State.loaded8_params, State.loaded8_flags, State.loaded8_r8] at hf
  rw [State.loaded8_flags, State.loaded8_r8] at hr
  exact ⟨hf, hr, (calls_loaded8 s m).of_bus (alu8_reg_bus _ op r _)⟩

/-! ## ALU operations of a word (41_arith_logic.md R250) -/

/-- An r/m word operand read, then flags set, then the operand written. -/
theorem rewriteOp16_leaves (s : State) (m : Rm Reg16) (f : Flags) (v : Word) :
    (((s.loaded16 m).setFlags f).writeOp16 (s.operand m) v).flags = f ∧
    s.RmHolds16 (((s.loaded16 m).setFlags f).writeOp16 (s.operand m) v) m v ∧
    s.Calls (((s.loaded16 m).setFlags f).writeOp16 (s.operand m) v) (s.rmWrites16 m v ++ s.rmReads16 m) :=
  ⟨State.writeOp16_flags _ _ _, rmHolds16_writeOp16 s m _ (by simp),
    (calls_loaded16 s m).trans (calls_writeOp16 (t := (s.loaded16 m).setFlags f) s m _ (by simp))⟩

/-- What an ALU operation leaves of an r/m word destination: flags, result and the calls of the bus. -/
theorem alu16_leaves (s : State) (op : AluOp) (m : Rm Reg16) (b : Word) :
    ((s.decoded m).alu16 op (s.operand m) b).flags = op.flags s.params.afMode (s.rmWord m) b s.flags ∧
    (op ≠ .cmp → s.RmHolds16 ((s.decoded m).alu16 op (s.operand m) b) m
      (op.result (s.rmWord m) b s.flags.cf)) ∧
    s.Calls ((s.decoded m).alu16 op (s.operand m) b)
      ((if op = .cmp then [] else s.rmWrites16 m (op.result (s.rmWord m) b s.flags.cf)) ++ s.rmReads16 m) := by
  have hp := s.decoded_params m
  have hf := s.decoded_flags m
  by_cases hc : op = .cmp
  · subst hc
    rw [alu16_cmp, hp, hf]
    exact ⟨rfl, fun h => absurd rfl h, calls_loaded16 s m⟩
  · have hb : op.writesBack = true := by simpa [AluOp.writesBack] using hc
    rw [State.alu16, if_pos hb, hp, hf, if_neg hc]
    obtain ⟨h1, h2, h3⟩ := rewriteOp16_leaves s m _ (op.result (s.rmWord m) b s.flags.cf)
    exact ⟨h1, fun _ => h2, h3⟩

/-- What an ALU operation leaves of a word register. -/
theorem alu16_reg_leaves (s : State) (op : AluOp) (r : Reg16) (b : Word) :
    (s.alu16 op (.reg r) b).flags = op.flags s.params.afMode (s.r16 r) b s.flags ∧
    (s.alu16 op (.reg r) b).r16 r = op.stores (s.r16 r) b s.flags.cf := by
  by_cases hc : op = .cmp
  · subst hc
    exact ⟨rfl, rfl⟩
  · have hb : op.writesBack = true := by simpa [AluOp.writesBack] using hc
    rw [State.alu16, if_pos hb, AluOp.stores, if_neg hc]
    exact ⟨rfl, State.r16_setR16_self _ _ _⟩

/-- The same after the word operand of the source is read. -/
theorem alu16_reg_loaded_leaves (s : State) (op : AluOp) (r : Reg16) (m : Rm Reg16) :
    ((s.loaded16 m).alu16 op (.reg r) (s.rmWord m)).flags
      = op.flags s.params.afMode (s.r16 r) (s.rmWord m) s.flags ∧
    ((s.loaded16 m).alu16 op (.reg r) (s.rmWord m)).r16 r = op.stores (s.r16 r) (s.rmWord m) s.flags.cf ∧
    s.Calls ((s.loaded16 m).alu16 op (.reg r) (s.rmWord m)) (s.rmReads16 m) := by
  obtain ⟨hf, hr⟩ := alu16_reg_leaves (s.loaded16 m) op r (s.rmWord m)
  rw [State.loaded16_params, State.loaded16_flags, State.loaded16_r16] at hf
  rw [State.loaded16_flags, State.loaded16_r16] at hr
  exact ⟨hf, hr, (calls_loaded16 s m).of_bus (alu16_reg_bus _ op r _)⟩

/-- An immediate byte of 0x83 as a word has the byte's signed value (30_encoding.md R143). -/
theorem sext16_eq_ofInt (b : Byte) : sext16 b = BitVec.ofInt 16 b.toInt := rfl

/-- Settles O18: the four forms by the operand they write, and each operation's core by its definition. -/
theorem aluByteForms : Obligations.AluByteForms := by
  unfold Obligations.AluByteForms
  refine ⟨fun op m r i s => ⟨⟨_, exec_aluEbGb op m r s, alu8_leaves s op m (s.r8 r)⟩,
    ⟨_, exec_aluGbEb op r m s, alu8_reg_loaded_leaves s op r m⟩, ⟨_, exec_aluAlIb op i s, ?_⟩,
    ⟨_, exec_aluEbIb op m i s, alu8_leaves s op m i⟩⟩, fun mode a b cf f => ⟨fun op => ?_, fun op => ?_⟩⟩
  · obtain ⟨hf, hr⟩ := alu8_reg_leaves s op .al i
    exact ⟨hf, hr, alu8_reg_bus s op .al i⟩
  · cases op <;> rfl
  · cases op <;> rfl

/-- Settles O19: the five forms by the operand they write, and each operation's core by its definition. -/
theorem aluWordForms : Obligations.AluWordForms := by
  unfold Obligations.AluWordForms
  refine ⟨fun op m r i b s => ⟨⟨_, exec_aluEvGv op m r s, alu16_leaves s op m (s.r16 r)⟩,
    ⟨_, exec_aluGvEv op r m s, alu16_reg_loaded_leaves s op r m⟩, ⟨_, exec_aluAxIv op i s, ?_⟩,
    ⟨_, exec_aluEvIv op m i s, alu16_leaves s op m i⟩, ⟨_, exec_aluEvSb op m b s, alu16_leaves s op m (sext16 b)⟩⟩,
    fun mode a b cf f => ⟨fun op => ?_, fun op => ?_⟩⟩
  · obtain ⟨hf, hr⟩ := alu16_reg_leaves s op .ax i
    exact ⟨hf, hr, alu16_reg_bus s op .ax i⟩
  · cases op <;> rfl
  · cases op <;> rfl

/-! ## Flags of NOT, NEG, INC and DEC -/

theorem notFlags_flags (s : State) (r : BitVec w) :
    (s.notFlags r).flags = if s.params.notSetsFlags then logicFlags r s.flags else s.flags := by
  unfold State.notFlags
  split <;> rfl

theorem notFlags_regs (s : State) (r : BitVec w) : (s.notFlags r).regs = s.regs := by
  unfold State.notFlags
  split <;> rfl

/-- The flags of NEG, the subtraction from 0 (41_arith_logic.md R265). -/
theorem subFlags_zero_left (mode : AfMode) (a : BitVec w) (f : Flags) (hw : w = 8 ∨ w = 16) :
    subFlags mode 0 a false f = { f with
      cf := decide (a ≠ 0), ovf := decide (a.toNat = 2 ^ (w - 1)), zf := decide (a = 0)
      sf := (subResult 0 a false).msb, pf := evenParity (subResult 0 a false)
      af := if mode = .intel then decide (a.toNat % 16 ≠ 0) else f.af } := by
  have ha := a.isLt
  have hr := subResult_toNat 0 a false
  have ovf : (subFlags mode 0 a false f).ovf = decide (a.toNat = 2 ^ (w - 1)) := by
    have ht := BitVec.toInt_eq_toNat_cond a
    rw [Bool.eq_iff_iff, subFlags_ovf_iff mode 0 a false f hw, decide_eq_true_iff]
    rcases hw with rfl | rfl <;> simp <;> split at ht <;> omega
  have zf : (subFlags mode 0 a false f).zf = decide (a = 0) := by
    rw [subFlags_eq, beq_zero_eq, hr, Bool.eq_iff_iff, decide_eq_true_iff, decide_eq_true_iff, BitVec.toNat_eq]
    rcases hw with rfl | rfl <;> simp <;> omega
  have cf : (subFlags mode 0 a false f).cf = decide (a ≠ 0) := by
    rw [subFlags_eq, Bool.eq_iff_iff, decide_eq_true_iff, decide_eq_true_iff, ne_eq, BitVec.toNat_eq]
    simp [subRaw]
    omega
  have af : (subFlags mode 0 a false f).af = if mode = .intel then decide (a.toNat % 16 ≠ 0) else f.af := by
    cases mode
    · rw [Bool.eq_iff_iff, subFlags_af_iff 0 a false f hw]
      simp
      omega
    · rfl
  rw [← ovf, ← zf, ← cf, ← af, subFlags_eq]

/-- INC's flags are those of adding 1, CF kept (41_arith_logic.md R266, R267). -/
theorem incLeaves_of_flags {s t : State} {a : BitVec w} (hw : w = 8 ∨ w = 16)
    (h : t.flags = incFlags s.params.afMode a s.flags) : s.IncLeaves a (addResult a 1 false) t := by
  have ha := a.isLt
  have h1 : (1 : BitVec w).toNat = 1 := by rcases hw with rfl | rfl <;> rfl
  have hr := addResult_toNat a 1 false
  have ovf : (addFlags s.params.afMode a 1 false s.flags).ovf = decide (a.toNat = 2 ^ (w - 1) - 1) := by
    have ht := BitVec.toInt_eq_toNat_cond a
    have h1' : (1 : BitVec w).toInt = 1 := by rcases hw with rfl | rfl <;> rfl
    rw [Bool.eq_iff_iff, addFlags_ovf_iff _ a 1 false _ hw, decide_eq_true_iff, h1']
    rcases hw with rfl | rfl <;> simp <;> split at ht <;> omega
  have af : (addFlags s.params.afMode a 1 false s.flags).af =
      if s.params.afMode = .intel then decide (a.toNat % 16 = 15) else s.flags.af := by
    cases s.params.afMode
    · rw [Bool.eq_iff_iff, addFlags_af_iff a 1 false s.flags hw, h1]
      simp
      omega
    · rfl
  rw [State.IncLeaves, h, incFlags]
  obtain ⟨zf, sf, pf⟩ := addFlags_szp s.params.afMode a 1 false s.flags
  exact ⟨by simpa [h1] using hr, rfl, ovf, zf, sf, pf, af⟩

/-- DEC's flags are those of subtracting 1, CF kept (41_arith_logic.md R268, R269). -/
theorem decLeaves_of_flags {s t : State} {a : BitVec w} (hw : w = 8 ∨ w = 16)
    (h : t.flags = decFlags s.params.afMode a s.flags) : s.DecLeaves a (subResult a 1 false) t := by
  have ha := a.isLt
  have h1 : (1 : BitVec w).toNat = 1 := by rcases hw with rfl | rfl <;> rfl
  have hr : a.toNat = ((subResult a 1 false).toNat + 1) % 2 ^ w := by
    rw [subResult_toNat, h1]
    rcases hw with rfl | rfl <;> simp at ha ⊢ <;> omega
  have ovf : (subFlags s.params.afMode a 1 false s.flags).ovf = decide (a.toNat = 2 ^ (w - 1)) := by
    have ht := BitVec.toInt_eq_toNat_cond a
    have h1' : (1 : BitVec w).toInt = 1 := by rcases hw with rfl | rfl <;> rfl
    rw [Bool.eq_iff_iff, subFlags_ovf_iff _ a 1 false _ hw, decide_eq_true_iff, h1']
    rcases hw with rfl | rfl <;> simp <;> split at ht <;> omega
  have af : (subFlags s.params.afMode a 1 false s.flags).af =
      if s.params.afMode = .intel then decide (a.toNat % 16 = 0) else s.flags.af := by
    cases s.params.afMode
    · rw [Bool.eq_iff_iff, subFlags_af_iff a 1 false s.flags hw, h1]
      simp
    · rfl
  rw [State.DecLeaves, h, decFlags]
  obtain ⟨zf, sf, pf⟩ := subFlags_szp s.params.afMode a 1 false s.flags
  exact ⟨hr, rfl, ovf, zf, sf, pf, af⟩

/-! ## NOT, NEG, INC and DEC of a byte (41_arith_logic.md R264 to R269) -/

theorem notOp8_leaves (s : State) (m : Rm Reg8) :
    s.RmHolds8 ((s.decoded m).notOp8 (s.operand m)) m (~~~s.rmByte m) ∧
    s.Calls ((s.decoded m).notOp8 (s.operand m)) (s.rmWrites8 m (~~~s.rmByte m) ++ s.rmReads8 m) ∧
    ((s.decoded m).notOp8 (s.operand m)).flags =
      if s.params.notSetsFlags then logicFlags (~~~s.rmByte m) s.flags else s.flags := by
  obtain ⟨hf, hh, hc⟩ := rewriteOp8_leaves s m (s.loaded8 m).flags (~~~s.rmByte m)
  refine ⟨hh.of_eq (notFlags_regs _ _) (notFlags_bus _ _), hc.of_bus (notFlags_bus _ _), ?_⟩
  refine (notFlags_flags ((s.loaded8 m).writeOp8 (s.operand m) (~~~s.rmByte m)) _).trans ?_
  rw [State.writeOp8_params, State.writeOp8_flags, State.loaded8_params, State.loaded8_flags]
  rfl

theorem negOp8_leaves (s : State) (m : Rm Reg8) : ∃ t r, exec (.negEb m) s = .next t ∧
    r = subResult 0 (s.rmByte m) false ∧ s.RmHolds8 t m r ∧ s.Calls t (s.rmWrites8 m r ++ s.rmReads8 m) ∧
    t.flags = subFlags s.params.afMode 0 (s.rmByte m) false s.flags := by
  obtain ⟨hf, hh, hc⟩ := rewriteOp8_leaves s m _ (subResult 0 (s.rmByte m) false)
  refine ⟨_, _, rfl, rfl, hh, hc, hf.trans ?_⟩
  rw [State.decoded_params, State.decoded_flags]
  rfl

theorem incOp8_leaves (s : State) (m : Rm Reg8) : ∃ t r, exec (.incEb m) s = .next t ∧
    s.IncLeaves (s.rmByte m) r t ∧ s.RmHolds8 t m r ∧ s.Calls t (s.rmWrites8 m r ++ s.rmReads8 m) := by
  obtain ⟨hf, hh, hc⟩ := rewriteOp8_leaves s m
    (incFlags (s.decoded m).params.afMode (s.rmByte m) (s.decoded m).flags) (addResult (s.rmByte m) 1 false)
  refine ⟨_, _, rfl, incLeaves_of_flags (by decide) (hf.trans ?_), hh, hc⟩
  rw [State.decoded_params, State.decoded_flags]

theorem decOp8_leaves (s : State) (m : Rm Reg8) : ∃ t r, exec (.decEb m) s = .next t ∧
    s.DecLeaves (s.rmByte m) r t ∧ s.RmHolds8 t m r ∧ s.Calls t (s.rmWrites8 m r ++ s.rmReads8 m) := by
  obtain ⟨hf, hh, hc⟩ := rewriteOp8_leaves s m
    (decFlags (s.decoded m).params.afMode (s.rmByte m) (s.decoded m).flags) (subResult (s.rmByte m) 1 false)
  refine ⟨_, _, rfl, decLeaves_of_flags (by decide) (hf.trans ?_), hh, hc⟩
  rw [State.decoded_params, State.decoded_flags]

/-! ## NOT, NEG, INC and DEC of a word (41_arith_logic.md R264 to R269) -/

theorem notOp16_leaves (s : State) (m : Rm Reg16) :
    s.RmHolds16 ((s.decoded m).notOp16 (s.operand m)) m (~~~s.rmWord m) ∧
    s.Calls ((s.decoded m).notOp16 (s.operand m)) (s.rmWrites16 m (~~~s.rmWord m) ++ s.rmReads16 m) ∧
    ((s.decoded m).notOp16 (s.operand m)).flags =
      if s.params.notSetsFlags then logicFlags (~~~s.rmWord m) s.flags else s.flags := by
  obtain ⟨hf, hh, hc⟩ := rewriteOp16_leaves s m (s.loaded16 m).flags (~~~s.rmWord m)
  refine ⟨hh.of_eq (notFlags_regs _ _) (notFlags_bus _ _), hc.of_bus (notFlags_bus _ _), ?_⟩
  refine (notFlags_flags ((s.loaded16 m).writeOp16 (s.operand m) (~~~s.rmWord m)) _).trans ?_
  rw [State.writeOp16_params, State.writeOp16_flags, State.loaded16_params, State.loaded16_flags]
  rfl

theorem negOp16_leaves (s : State) (m : Rm Reg16) : ∃ t r, exec (.negEv m) s = .next t ∧
    r = subResult 0 (s.rmWord m) false ∧ s.RmHolds16 t m r ∧ s.Calls t (s.rmWrites16 m r ++ s.rmReads16 m) ∧
    t.flags = subFlags s.params.afMode 0 (s.rmWord m) false s.flags := by
  obtain ⟨hf, hh, hc⟩ := rewriteOp16_leaves s m _ (subResult 0 (s.rmWord m) false)
  refine ⟨_, _, rfl, rfl, hh, hc, hf.trans ?_⟩
  rw [State.decoded_params, State.decoded_flags]
  rfl

theorem incOp16_leaves (s : State) (m : Rm Reg16) : ∃ t r, exec (.incEv m) s = .next t ∧
    s.IncLeaves (s.rmWord m) r t ∧ s.RmHolds16 t m r ∧ s.Calls t (s.rmWrites16 m r ++ s.rmReads16 m) := by
  obtain ⟨hf, hh, hc⟩ := rewriteOp16_leaves s m
    (incFlags (s.decoded m).params.afMode (s.rmWord m) (s.decoded m).flags) (addResult (s.rmWord m) 1 false)
  refine ⟨_, _, rfl, incLeaves_of_flags (by decide) (hf.trans ?_), hh, hc⟩
  rw [State.decoded_params, State.decoded_flags]

theorem decOp16_leaves (s : State) (m : Rm Reg16) : ∃ t r, exec (.decEv m) s = .next t ∧
    s.DecLeaves (s.rmWord m) r t ∧ s.RmHolds16 t m r ∧ s.Calls t (s.rmWrites16 m r ++ s.rmReads16 m) := by
  obtain ⟨hf, hh, hc⟩ := rewriteOp16_leaves s m
    (decFlags (s.decoded m).params.afMode (s.rmWord m) (s.decoded m).flags) (subResult (s.rmWord m) 1 false)
  refine ⟨_, _, rfl, decLeaves_of_flags (by decide) (hf.trans ?_), hh, hc⟩
  rw [State.decoded_params, State.decoded_flags]

/-- Settles O20: NOT by its complement and its parameter, NEG by the subtraction from 0. -/
theorem notAndNeg : Obligations.NotAndNeg := by
  unfold Obligations.NotAndNeg
  refine ⟨fun m s => ⟨?not8, ?neg8⟩, fun m s => ⟨?not16, ?neg16⟩⟩
  case not8 =>
    obtain ⟨hh, hc, hf⟩ := notOp8_leaves s m
    exact ⟨_, _, rfl, BitVec.toNat_not, hh, hc, hf⟩
  case not16 =>
    obtain ⟨hh, hc, hf⟩ := notOp16_leaves s m
    exact ⟨_, _, rfl, BitVec.toNat_not, hh, hc, hf⟩
  case neg8 =>
    obtain ⟨t, r, he, hr, hh, hc, hf⟩ := negOp8_leaves s m
    have ha := (s.rmByte m).isLt
    have hn := subResult_toNat 0 (s.rmByte m) false
    rw [subFlags_zero_left _ _ _ (.inl rfl), ← hr] at hf
    refine ⟨t, r, he, ?_, hh, hc, ?_⟩
    · rw [hr, hn]
      simp
      omega
    · rw [hf]
      exact ⟨rfl, decide_eq_decide.mpr (BitVec.toNat_eq (x := s.rmByte m) (y := 0x80#8)).symm, rfl, rfl, rfl, rfl⟩
  case neg16 =>
    obtain ⟨t, r, he, hr, hh, hc, hf⟩ := negOp16_leaves s m
    have ha := (s.rmWord m).isLt
    have hn := subResult_toNat 0 (s.rmWord m) false
    rw [subFlags_zero_left _ _ _ (.inr rfl), ← hr] at hf
    refine ⟨t, r, he, ?_, hh, hc, ?_⟩
    · rw [hr, hn]
      simp
      omega
    · rw [hf]
      exact ⟨rfl, decide_eq_decide.mpr (BitVec.toNat_eq (x := s.rmWord m) (y := 0x8000#16)).symm, rfl, rfl, rfl, rfl⟩

/-- Settles O21: the r/m forms by the operand they write, the register forms by the register. -/
theorem incAndDec : Obligations.IncAndDec := by
  unfold Obligations.IncAndDec
  refine ⟨fun m s => ⟨incOp8_leaves s m, decOp8_leaves s m⟩, fun m s => ⟨incOp16_leaves s m, decOp16_leaves s m⟩,
    fun r s => ⟨⟨_, rfl, ?inc, rfl⟩, ⟨_, rfl, ?dec, rfl⟩⟩⟩
  case inc =>
    have hr : (s.incOp16 (.reg r)).r16 r = addResult (s.r16 r) 1 false := State.r16_setR16_self _ _ _
    rw [hr]
    exact incLeaves_of_flags (.inr rfl) rfl
  case dec =>
    have hr : (s.decOp16 (.reg r)).r16 r = subResult (s.r16 r) 1 false := State.r16_setR16_self _ _ _
    rw [hr]
    exact decLeaves_of_flags (.inr rfl) rfl

end Sys2Proof.Machine
end

section
/-! Data movement (40_data_movement.md). -/

namespace Sys2Proof.Machine

/-! ## Operands written -/

/-- A byte operand decoded and written, not read. -/
theorem movOp8_leaves (s : State) (m : Rm Reg8) (v : Byte) :
    s.RmHolds8 ((s.decoded m).writeOp8 (s.operand m) v) m v ∧
    ((s.decoded m).writeOp8 (s.operand m) v).flags = s.flags ∧
    s.Calls ((s.decoded m).writeOp8 (s.operand m) v) (s.rmWrites8 m v) := by
  have h := calls_writeOp8 s m v (t := s.decoded m) rfl
  rw [State.Calls, State.decoded_bus] at h
  exact ⟨rmHolds8_writeOp8 s m v rfl, by simp, h⟩

/-- A word operand decoded and written, not read. -/
theorem movOp16_leaves (s : State) (m : Rm Reg16) (v : Word) :
    s.RmHolds16 ((s.decoded m).writeOp16 (s.operand m) v) m v ∧
    ((s.decoded m).writeOp16 (s.operand m) v).flags = s.flags ∧
    s.Calls ((s.decoded m).writeOp16 (s.operand m) v) (s.rmWrites16 m v) := by
  have h := calls_writeOp16 s m v (t := s.decoded m) rfl
  rw [State.Calls, State.decoded_bus] at h
  exact ⟨rmHolds16_writeOp16 s m v rfl, by simp, h⟩

/-- Settles O22: sources by the call that reads them, destinations by the write that is held. -/
theorem movForms : Obligations.MovForms := by
  unfold Obligations.MovForms
  refine ⟨fun m r i s => ⟨⟨_, rfl, movOp8_leaves s m _⟩, ⟨_, rfl, State.r8_setR8_self _ _ _, s.loaded8_flags m,
    calls_loaded8 s m⟩, ⟨_, rfl, movOp8_leaves s m _⟩, ⟨_, rfl, State.r8_setR8_self _ _ _, rfl, rfl⟩⟩,
    fun m r g i s => ⟨⟨_, rfl, movOp16_leaves s m _⟩, ⟨_, rfl, State.r16_setR16_self _ _ _, s.loaded16_flags m,
    calls_loaded16 s m⟩, ⟨_, rfl, movOp16_leaves s m _⟩, ⟨_, rfl, State.r16_setR16_self _ _ _, rfl, rfl⟩,
    ⟨_, rfl, State.sreg_setSreg_self _ _ _, s.loaded16_flags m, calls_loaded16 s m⟩,
    ⟨_, rfl, movOp16_leaves s m _⟩⟩, fun a s => ⟨⟨_, rfl, State.r8_setR8_self _ _ _, rfl, rfl⟩,
    ⟨_, rfl, State.r16_setR16_self _ _ _, rfl, rfl⟩, ⟨_, rfl, holdsByte_writeByte s _ _, rfl, rfl⟩,
    ⟨_, rfl, holdsWord_writeWord s _ _, rfl, rfl⟩⟩⟩

/-! ## Far pointers -/

/-- The two words of a far pointer, read through the decoded segment, offset first (40_data_movement.md R210). -/
theorem far_decodedMem (s : State) (p : MemOp) :
    (s.decodedMem p).farOffset (s.ea p) = s.readWord (s.memAddr p) ∧
    (s.decodedMem p).farSegment (s.ea p)
      = (s.afterReadWord (s.memAddr p)).readWord ((s.decodedMem p).dataAddr (s.ea p + 2)) ∧
    s.Calls ((s.decodedMem p).afterFar (s.ea p))
      [.readWord ((s.decodedMem p).dataAddr (s.ea p + 2))
          ((s.afterReadWord (s.memAddr p)).readWord ((s.decodedMem p).dataAddr (s.ea p + 2))),
        .readWord (s.memAddr p) (s.readWord (s.memAddr p))] := by
  have hb : (s.decodedMem p).bus = s.bus := s.decodedMem_bus p
  have hr : ∀ a, (s.decodedMem p).readWord a = s.readWord a := fun a => by simp
  have hs : (s.decodedMem p).farSegment (s.ea p)
      = (s.afterReadWord (s.memAddr p)).readWord ((s.decodedMem p).dataAddr (s.ea p + 2)) := by
    have ha : ((s.decodedMem p).afterReadWord (s.memAddr p)).bus = (s.afterReadWord (s.memAddr p)).bus := by
      rw [State.afterReadWord, State.afterReadWord, hb, hr]
    exact congrArg (Bus.wordAnswer · _) ha
  have hc := calls_afterFar (s.decodedMem p) (s.ea p)
  rw [State.Calls, hb, hs, State.farOffset, hr] at hc
  exact ⟨hr _, hs, hc⟩

/-! ## XCHG -/

theorem exec_xchgEbGb (m : Rm Reg8) (r : Reg8) (s : State) : exec (.xchgEbGb m r) s =
    .next (((s.loaded8 m).writeOp8 (s.operand m) (s.r8 r)).setR8 r (s.rmByte m)) := by
  rw [← State.decoded_r8 s m r]
  rfl

/-- XCHG of an r/m byte and a register, which may be the same. -/
theorem xchg8_leaves (s : State) (m : Rm Reg8) (r : Reg8) : ∃ t, exec (.xchgEbGb m r) s = .next t ∧
    s.RmHolds8 t m (s.r8 r) ∧ t.r8 r = s.rmByte m ∧ t.flags = s.flags ∧
    s.Calls t (s.rmWrites8 m (s.r8 r) ++ s.rmReads8 m) := by
  refine ⟨_, exec_xchgEbGb m r s, ?_, State.r8_setR8_self _ _ _, by simp,
    (calls_loaded8 s m).trans (calls_writeOp8 (t := s.loaded8 m) s m (s.r8 r) (by simp))⟩
  cases m with
  | reg q =>
    show ((s.setR8 q (s.r8 r)).setR8 r (s.r8 q)).r8 q = s.r8 r
    rw [State.r8_setR8]
    split
    · next e => rw [e]
    · exact State.r8_setR8_self _ _ _
  | mem p => exact rmHolds8_writeOp8 (t := s.loaded8 (.mem p)) s (.mem p) (s.r8 r) rfl

theorem exec_xchgEvGv (m : Rm Reg16) (r : Reg16) (s : State) : exec (.xchgEvGv m r) s =
    .next (((s.loaded16 m).writeOp16 (s.operand m) (s.r16 r)).setR16 r (s.rmWord m)) := by
  rw [← State.decoded_r16 s m r]
  rfl

/-- XCHG of an r/m word and a register, which may be the same. -/
theorem xchg16_leaves (s : State) (m : Rm Reg16) (r : Reg16) : ∃ t, exec (.xchgEvGv m r) s = .next t ∧
    s.RmHolds16 t m (s.r16 r) ∧ t.r16 r = s.rmWord m ∧ t.flags = s.flags ∧
    s.Calls t (s.rmWrites16 m (s.r16 r) ++ s.rmReads16 m) := by
  refine ⟨_, exec_xchgEvGv m r s, ?_, State.r16_setR16_self _ _ _, by simp,
    (calls_loaded16 s m).trans (calls_writeOp16 (t := s.loaded16 m) s m (s.r16 r) (by simp))⟩
  cases m with
  | reg q =>
    show ((s.setR16 q (s.r16 r)).setR16 r (s.r16 q)).r16 q = s.r16 r
    rw [State.r16_setR16]
    split
    · next e => rw [e]
    · exact State.r16_setR16_self _ _ _
  | mem p => exact rmHolds16_writeOp16 (t := s.loaded16 (.mem p)) s (.mem p) (s.r16 r) rfl

/-- Settles O23: by the operand forms; the accumulator form is two registers. -/
theorem xchgForms : Obligations.XchgForms := by
  unfold Obligations.XchgForms
  refine ⟨fun m r s => xchg8_leaves s m r, fun m r s => ⟨xchg16_leaves s m r, ?_⟩⟩
  obtain ⟨t, he, ha, hr, hf, -⟩ := xchg16_leaves s (.reg .ax) r
  cases he
  exact ⟨_, rfl, ha, hr, hf, rfl⟩

/-! ## LEA, LDS, LES -/

/-- The two words of a far pointer through the decoded segment (40_data_movement.md R210). -/
theorem loadFar_leaves (s : State) (r : Reg16) (g : SegReg) (p : MemOp) :
    ((s.decodedMem p).loadFar r g (s.ea p)).r16 r = s.readWord (s.memAddr p) ∧
    ((s.decodedMem p).loadFar r g (s.ea p)).sreg g
      = (s.afterReadWord (s.memAddr p)).readWord ((s.decodedMem p).dataAddr (s.ea p + 2)) ∧
    ((s.decodedMem p).loadFar r g (s.ea p)).flags = s.flags ∧
    s.Calls ((s.decodedMem p).loadFar r g (s.ea p))
      [.readWord ((s.decodedMem p).dataAddr (s.ea p + 2))
          ((s.afterReadWord (s.memAddr p)).readWord ((s.decodedMem p).dataAddr (s.ea p + 2))),
        .readWord (s.memAddr p) (s.readWord (s.memAddr p))] := by
  obtain ⟨ho, hs, hc⟩ := far_decodedMem s p
  refine ⟨(State.r16_setR16_self _ _ _).trans ho, (State.sreg_setSreg_self _ _ _).trans hs, ?_, hc⟩
  simp [State.loadFar]

/-- Settles O24: LEA by its address, LDS and LES by the pointer's two words. -/
theorem leaLdsLes : Obligations.LeaLdsLes := by
  unfold Obligations.LeaLdsLes
  intro r p s
  exact ⟨⟨_, rfl, State.r16_setR16_self _ _ _, s.decodedMem_flags p, s.decodedMem_bus p⟩,
    ⟨_, rfl, loadFar_leaves s r .ds p⟩, ⟨_, rfl, loadFar_leaves s r .es p⟩⟩

/-! ## The accumulator -/

theorem State.xlatAddr_eq (s : State) : s.xlatAddr =
    phys (match s.segOverride with
      | some g => s.sreg g
      | none => s.sreg .ds) (BitVec.ofNat 16 ((s.r16 .bx).toNat + (s.r8 .al).toNat)) := by
  have e : s.r16 .bx + zext16 (s.r8 .al) = BitVec.ofNat 16 ((s.r16 .bx).toNat + (s.r8 .al).toNat) := by
    apply BitVec.eq_of_toNat_eq
    simp [zext16]
  rw [State.xlatAddr, e]
  rfl

/-- Settles O25: each by its definition, XLAT by the address of its table's byte. -/
theorem accumulatorMoves : Obligations.AccumulatorMoves := by
  unfold Obligations.AccumulatorMoves
  intro s
  refine ⟨⟨_, rfl, rfl, s.xlatAddr, s.xlatAddr_eq, State.r8_setR8_self _ _ _, rfl⟩, ⟨_, rfl, rfl, ?lahf⟩,
    ⟨_, rfl, rfl⟩, ⟨_, rfl, rfl, ?cbw⟩, ⟨_, rfl, rfl, rfl, ?cwd⟩⟩
  case lahf => rw [State.r8_setR8_self, lowByte_toNat]
  case cbw => rw [State.r16_setR16_self, sext16_toInt]
  case cwd =>
    rw [State.r16_setR16_self, BitVec.msb_eq_decide]
    simp

end Sys2Proof.Machine
end

section
/-! Multiply and divide (42_muldiv_bcd.md sections 2 and 3). -/

namespace Sys2Proof.Machine

/-! ## Signed numbers of a width -/

theorem toInt_byte_bounds (v : Byte) : -128 ≤ v.toInt ∧ v.toInt ≤ 127 := by
  have h1 := BitVec.le_toInt v
  have h2 := BitVec.toInt_lt (x := v)
  norm_num at h1 h2
  omega

theorem toInt_word_bounds (v : Word) : -32768 ≤ v.toInt ∧ v.toInt ≤ 32767 := by
  have h1 := BitVec.le_toInt v
  have h2 := BitVec.toInt_lt (x := v)
  norm_num at h1 h2
  omega

/-- A product of numbers of magnitude at most `c` has magnitude at most `c * c`. -/
theorem mul_bounds {a b c : Int} (ha : -c ≤ a ∧ a ≤ c) (hb : -c ≤ b ∧ b ≤ c) : -(c * c) ≤ a * b ∧ a * b ≤ c * c := by
  obtain ⟨ha1, ha2⟩ := ha
  obtain ⟨hb1, hb2⟩ := hb
  constructor
  · nlinarith [mul_nonneg (sub_nonneg.mpr ha2) (sub_nonneg.mpr hb2),
      mul_nonneg (show 0 ≤ c + a by omega) (show 0 ≤ c + b by omega)]
  · nlinarith [mul_nonneg (sub_nonneg.mpr ha2) (show 0 ≤ c + b by omega),
      mul_nonneg (show 0 ≤ c + a by omega) (sub_nonneg.mpr hb2)]

/-! ## Multiply -/

/-- A multiply's flags leave CF and OF as set (42_muldiv_bcd.md R301, R302). -/
theorem mulFlags_cf_ovf (s : State) (c : Bool) : (s.mulFlags c).flags.cf = c ∧ (s.mulFlags c).flags.ovf = c :=
  ⟨State.get_undefFlags_ne (k := .cf) _ _ (by decide), State.get_undefFlags_ne (k := .ovf) _ _ (by decide)⟩

@[simp] theorem mulFlags_bus (s : State) (c : Bool) : (s.mulFlags c).bus = s.bus := State.undefFlags_bus _ _

@[simp] theorem mulFlags_r16 (s : State) (c : Bool) (r : Reg16) : (s.mulFlags c).r16 r = s.r16 r :=
  State.undefFlags_r16 _ _ _

theorem mul8_leaves (s : State) (x : Byte) :
    ((s.mul8 x).r16 .ax).toNat = (s.r8 .al).toNat * x.toNat ∧
    (s.mul8 x).flags.cf = decide ((s.r8 .al).toNat * x.toNat > 0xFF) ∧
    (s.mul8 x).flags.ovf = (s.mul8 x).flags.cf := by
  have ha := (s.r8 .al).isLt
  have hx := x.isLt
  have hp : (s.r8 .al).toNat * x.toNat < 2 ^ 16 := by nlinarith
  have hn : (BitVec.ofNat 16 ((s.r8 .al).toNat * x.toNat)).toNat = (s.r8 .al).toNat * x.toNat :=
    (BitVec.toNat_ofNat _ _).trans (Nat.mod_eq_of_lt hp)
  obtain ⟨hc, ho⟩ := mulFlags_cf_ovf (s.setR16 .ax (BitVec.ofNat 16 ((s.r8 .al).toNat * x.toNat)))
    (highByte (BitVec.ofNat 16 ((s.r8 .al).toNat * x.toNat)) != 0)
  refine ⟨?_, hc.trans ?_, ho.trans hc.symm⟩
  · rw [State.mul8, mulFlags_r16, State.r16_setR16_self, hn]
  · rw [Bool.eq_iff_iff, bne_iff_ne, ne_eq, BitVec.toNat_eq, highByte_toNat, hn, decide_eq_true_iff]
    simp
    omega

theorem mul16_leaves (s : State) (x : Word) :
    ((s.mul16 x).r16 .dx).toNat * 0x10000 + ((s.mul16 x).r16 .ax).toNat = (s.r16 .ax).toNat * x.toNat ∧
    (s.mul16 x).flags.cf = decide ((s.r16 .ax).toNat * x.toNat > 0xFFFF) ∧
    (s.mul16 x).flags.ovf = (s.mul16 x).flags.cf := by
  have ha := (s.r16 .ax).isLt
  have hx := x.isLt
  have hp : (s.r16 .ax).toNat * x.toNat < 2 ^ 32 := by nlinarith
  obtain ⟨hc, ho⟩ := mulFlags_cf_ovf ((s.setR16 .ax (BitVec.ofNat 16 ((s.r16 .ax).toNat * x.toNat))).setR16 .dx
    (BitVec.ofNat 16 ((s.r16 .ax).toNat * x.toNat / 2 ^ 16)))
    (BitVec.ofNat 16 ((s.r16 .ax).toNat * x.toNat / 2 ^ 16) != 0)
  refine ⟨?_, hc.trans ?_, ho.trans hc.symm⟩
  · rw [State.mul16, mulFlags_r16, mulFlags_r16, State.r16_setR16_self, State.r16_setR16_ne _ _ (by decide),
      State.r16_setR16_self, BitVec.toNat_ofNat, BitVec.toNat_ofNat]
    omega
  · rw [Bool.eq_iff_iff, bne_iff_ne, ne_eq, BitVec.toNat_eq, BitVec.toNat_ofNat, decide_eq_true_iff]
    simp
    omega

/-- A word of magnitude below 2^15 is a byte's signed value exactly when it is in the byte's range. -/
theorem toInt_ne_lowByte_toInt (p : Word) : p.toInt ≠ (lowByte p).toInt ↔ p.toInt < -128 ∨ p.toInt > 127 := by
  have h1 := BitVec.toInt_eq_toNat_cond p
  have h2 := BitVec.toInt_eq_toNat_cond (lowByte p)
  have h3 := p.isLt
  rw [lowByte_toNat] at h2
  norm_num at h1 h2
  split at h1 <;> split at h2 <;> omega

theorem imul8_leaves (s : State) (x : Byte) :
    ((s.imul8 x).r16 .ax).toInt = (s.r8 .al).toInt * x.toInt ∧
    (s.imul8 x).flags.cf = decide ((s.r8 .al).toInt * x.toInt < -128 ∨ (s.r8 .al).toInt * x.toInt > 127) ∧
    (s.imul8 x).flags.ovf = (s.imul8 x).flags.cf := by
  obtain ⟨ha1, ha2⟩ := toInt_byte_bounds (s.r8 .al)
  obtain ⟨hx1, hx2⟩ := toInt_byte_bounds x
  obtain ⟨hp1, hp2⟩ := mul_bounds (c := 128) ⟨ha1, by omega⟩ ⟨hx1, by omega⟩
  have hp : (BitVec.ofInt 16 ((s.r8 .al).toInt * x.toInt)).toInt = (s.r8 .al).toInt * x.toInt :=
    BitVec.toInt_ofInt_eq_self (by decide) (by norm_num; omega) (by norm_num; omega)
  obtain ⟨hc, ho⟩ := mulFlags_cf_ovf (s.setR16 .ax (BitVec.ofInt 16 ((s.r8 .al).toInt * x.toInt)))
    (decide ((BitVec.ofInt 16 ((s.r8 .al).toInt * x.toInt)).toInt
      ≠ (lowByte (BitVec.ofInt 16 ((s.r8 .al).toInt * x.toInt))).toInt))
  refine ⟨?_, hc.trans ?_, ho.trans hc.symm⟩
  · rw [State.imul8, mulFlags_r16, State.r16_setR16_self, hp]
  · rw [decide_eq_decide, toInt_ne_lowByte_toInt, hp]

/-- The low word of a number is its signed value exactly when it is in the word's range. -/
theorem ne_ofInt_toInt (p : Int) : p ≠ (BitVec.ofInt 16 p).toInt ↔ p < -32768 ∨ p > 32767 := by
  rw [BitVec.toInt_ofInt, Int.bmod_def]
  split <;> omega

theorem imul16_leaves (s : State) (x : Word) :
    ((s.imul16 x).r16 .dx).toInt * 0x10000 + ((s.imul16 x).r16 .ax).toNat = (s.r16 .ax).toInt * x.toInt ∧
    (s.imul16 x).flags.cf = decide ((s.r16 .ax).toInt * x.toInt < -32768 ∨ (s.r16 .ax).toInt * x.toInt > 32767) ∧
    (s.imul16 x).flags.ovf = (s.imul16 x).flags.cf := by
  obtain ⟨ha1, ha2⟩ := toInt_word_bounds (s.r16 .ax)
  obtain ⟨hx1, hx2⟩ := toInt_word_bounds x
  obtain ⟨hp1, hp2⟩ := mul_bounds (c := 32768) ⟨ha1, by omega⟩ ⟨hx1, by omega⟩
  have hh : (BitVec.ofInt 16 ((s.r16 .ax).toInt * x.toInt / 2 ^ 16)).toInt = (s.r16 .ax).toInt * x.toInt / 2 ^ 16 :=
    BitVec.toInt_ofInt_eq_self (by decide) (by norm_num; omega) (by norm_num; omega)
  obtain ⟨hc, ho⟩ := mulFlags_cf_ovf ((s.setR16 .ax (BitVec.ofInt 16 ((s.r16 .ax).toInt * x.toInt))).setR16 .dx
    (BitVec.ofInt 16 ((s.r16 .ax).toInt * x.toInt / 2 ^ 16)))
    (decide ((s.r16 .ax).toInt * x.toInt ≠ (BitVec.ofInt 16 ((s.r16 .ax).toInt * x.toInt)).toInt))
  refine ⟨?_, hc.trans ?_, ho.trans hc.symm⟩
  · rw [State.imul16, mulFlags_r16, mulFlags_r16, State.r16_setR16_self, State.r16_setR16_ne _ _ (by decide),
      State.r16_setR16_self, hh, BitVec.toNat_ofInt]
    omega
  · rw [decide_eq_decide, ne_ofInt_toInt]

/-- Settles O26: each product by its bounds. -/
theorem multiplyProducts : Obligations.MultiplyProducts := by
  unfold Obligations.MultiplyProducts
  refine ⟨fun m s => ⟨?mul8, ?imul8⟩, fun m s => ⟨?mul16, ?imul16⟩⟩
  case mul8 =>
    have h := mul8_leaves (s.loaded8 m) (s.rmByte m)
    rw [State.loaded8_r8] at h
    exact ⟨_, rfl, (calls_loaded8 s m).of_bus (mulFlags_bus _ _), h⟩
  case imul8 =>
    have h := imul8_leaves (s.loaded8 m) (s.rmByte m)
    rw [State.loaded8_r8] at h
    exact ⟨_, rfl, (calls_loaded8 s m).of_bus (mulFlags_bus _ _), h⟩
  case mul16 =>
    have h := mul16_leaves (s.loaded16 m) (s.rmWord m)
    rw [State.loaded16_r16] at h
    exact ⟨_, rfl, (calls_loaded16 s m).of_bus (mulFlags_bus _ _), h⟩
  case imul16 =>
    have h := imul16_leaves (s.loaded16 m) (s.rmWord m)
    rw [State.loaded16_r16] at h
    exact ⟨_, rfl, (calls_loaded16 s m).of_bus (mulFlags_bus _ _), h⟩

end Sys2Proof.Machine
end

section
/-! Divides, their quotients and their divide errors (42_muldiv_bcd.md R300, R303, R304). -/

namespace Sys2Proof.Machine

/-- DX:AX as a signed number, from its two words. -/
theorem State.dxAx_toInt (s : State) : s.dxAx.toInt = (s.r16 .dx).toInt * 0x10000 + (s.r16 .ax).toNat := by
  have hd := BitVec.toInt_eq_toNat_cond (s.r16 .dx)
  have hs := BitVec.toInt_eq_toNat_cond s.dxAx
  have ha := (s.r16 .ax).isLt
  rw [State.dxAx_toNat] at hs
  norm_num at hd hs
  split at hd <;> split at hs <;> omega

/-- A divide that succeeds leaves every register as it finds it. -/
@[simp] theorem divFlags_r8 (s : State) (r : Reg8) : s.divFlags.r8 r = s.r8 r := State.undefFlags_r8 _ _ _

@[simp] theorem divFlags_r16 (s : State) (r : Reg16) : s.divFlags.r16 r = s.r16 r := State.undefFlags_r16 _ _ _

theorem State.div8_al {s : State} {d : Byte} (h : s.div8Faults d = false) :
    (s.div8 d).r8 .al = BitVec.ofNat 8 ((s.r16 .ax).toNat / d.toNat) := by
  rw [State.div8_eq h, divFlags_r8, State.r8_setR8_ne _ _ (by decide), State.r8_setR8_self]

theorem State.div8_ah {s : State} {d : Byte} (h : s.div8Faults d = false) :
    (s.div8 d).r8 .ah = BitVec.ofNat 8 ((s.r16 .ax).toNat % d.toNat) := by
  rw [State.div8_eq h, divFlags_r8, State.r8_setR8_self]

theorem State.div16_ax {s : State} {d : Word} (h : s.div16Faults d = false) :
    (s.div16 d).r16 .ax = BitVec.ofNat 16 (s.dxAx.toNat / d.toNat) := by
  rw [State.div16_eq h, divFlags_r16, State.r16_setR16_ne _ _ (by decide), State.r16_setR16_self]

theorem State.div16_dx {s : State} {d : Word} (h : s.div16Faults d = false) :
    (s.div16 d).r16 .dx = BitVec.ofNat 16 (s.dxAx.toNat % d.toNat) := by
  rw [State.div16_eq h, divFlags_r16, State.r16_setR16_self]

theorem State.idiv8_al {s : State} {d : Byte} (h : s.idiv8Faults d = false) :
    (s.idiv8 d).r8 .al = BitVec.ofInt 8 ((s.r16 .ax).toInt.tdiv d.toInt) := by
  rw [State.idiv8_eq h, divFlags_r8, State.r8_setR8_ne _ _ (by decide), State.r8_setR8_self]

theorem State.idiv8_ah {s : State} {d : Byte} (h : s.idiv8Faults d = false) :
    (s.idiv8 d).r8 .ah = BitVec.ofInt 8 ((s.r16 .ax).toInt.tmod d.toInt) := by
  rw [State.idiv8_eq h, divFlags_r8, State.r8_setR8_self]

theorem State.idiv16_ax {s : State} {d : Word} (h : s.idiv16Faults d = false) :
    (s.idiv16 d).r16 .ax = BitVec.ofInt 16 (s.dxAx.toInt.tdiv d.toInt) := by
  rw [State.idiv16_eq h, divFlags_r16, State.r16_setR16_ne _ _ (by decide), State.r16_setR16_self]

theorem State.idiv16_dx {s : State} {d : Word} (h : s.idiv16Faults d = false) :
    (s.idiv16 d).r16 .dx = BitVec.ofInt 16 (s.dxAx.toInt.tmod d.toInt) := by
  rw [State.idiv16_eq h, divFlags_r16, State.r16_setR16_self]

/-- A quotient and a remainder below `2 ^ w`, as words of that width hold them. -/
theorem ofNat_div_mod {w n d : Nat} (hd : d ≠ 0) (hw : d < 2 ^ w) (hq : n / d < 2 ^ w) :
    n = d * (BitVec.ofNat w (n / d)).toNat + (BitVec.ofNat w (n % d)).toNat ∧ (BitVec.ofNat w (n % d)).toNat < d := by
  have hr : n % d < d := Nat.mod_lt _ (Nat.pos_of_ne_zero hd)
  rw [BitVec.toNat_ofNat, BitVec.toNat_ofNat, Nat.mod_eq_of_lt hq, Nat.mod_eq_of_lt (hr.trans hw)]
  exact ⟨(Nat.div_add_mod n d).symm, hr⟩

/-- A signed quotient and remainder in the range of width `w`, as words of that width hold them: the
remainder is smaller than the divisor and has the dividend's sign. -/
theorem ofInt_tdiv_tmod {w : Nat} {n d : Int} (hw : 0 < w) (hd : d ≠ 0) (hm : d.natAbs ≤ 2 ^ (w - 1))
    (h1 : -2 ^ (w - 1) ≤ n.tdiv d) (h2 : n.tdiv d < 2 ^ (w - 1)) :
    n = d * (BitVec.ofInt w (n.tdiv d)).toInt + (BitVec.ofInt w (n.tmod d)).toInt ∧
    (BitVec.ofInt w (n.tmod d)).toInt.natAbs < d.natAbs ∧ 0 ≤ n * (BitVec.ofInt w (n.tmod d)).toInt := by
  have hlt : (n.tmod d).natAbs < d.natAbs := by
    rw [Int.natAbs_tmod]
    exact Nat.mod_lt _ (Int.natAbs_pos.mpr hd)
  have hb : ((2 ^ (w - 1) : Nat) : Int) = 2 ^ (w - 1) := by push_cast; rfl
  rw [BitVec.toInt_ofInt_eq_self hw h1 h2, BitVec.toInt_ofInt_eq_self hw (by omega) (by omega)]
  refine ⟨(Int.mul_tdiv_add_tmod n d).symm, hlt, ?_⟩
  rcases Int.le_total 0 n with hn | hn
  · exact mul_nonneg hn (Int.tmod_nonneg d hn)
  · exact mul_nonneg_of_nonpos_of_nonpos hn (by
    have h := Int.tmod_nonneg d (neg_nonneg.mpr hn)
    rw [Int.neg_tmod] at h
    omega)

/-! ## Where a divide is a divide error, at the operand's own state -/

theorem div8Faults_iff (s : State) (d : Byte) :
    s.div8Faults d = true ↔ d.toNat = 0 ∨ (s.r16 .ax).toNat / d.toNat > 0xFF := by
  simp [State.div8Faults, BitVec.toNat_eq]

theorem div16Faults_iff (s : State) (d : Word) :
    s.div16Faults d = true ↔ d.toNat = 0 ∨ ((s.r16 .dx).toNat * 0x10000 + (s.r16 .ax).toNat) / d.toNat > 0xFFFF := by
  simp [State.div16Faults, BitVec.toNat_eq]

theorem idiv8Faults_iff (s : State) (d : Byte) :
    s.idiv8Faults d = true ↔ d.toInt = 0 ∨
      (s.r16 .ax).toInt.tdiv d.toInt < (if s.params.idivAcceptMin then -128 else -127) ∨
      (s.r16 .ax).toInt.tdiv d.toInt > 127 := by
  have hd : d = 0#8 ↔ d.toInt = 0 := BitVec.toInt_inj.symm.trans (by simp)
  simp [State.idiv8Faults, State.idivOverflows, State.idivLeast, hd]

theorem idiv16Faults_iff (s : State) (d : Word) :
    s.idiv16Faults d = true ↔ d.toInt = 0 ∨
      ((s.r16 .dx).toInt * 0x10000 + (s.r16 .ax).toNat).tdiv d.toInt
        < (if s.params.idivAcceptMin then -32768 else -32767) ∨
      ((s.r16 .dx).toInt * 0x10000 + (s.r16 .ax).toNat).tdiv d.toInt > 32767 := by
  have hd : d = 0#16 ↔ d.toInt = 0 := BitVec.toInt_inj.symm.trans (by simp)
  simp [State.idiv16Faults, State.idivOverflows, State.idivLeast, hd, State.dxAx_toInt]

/-- Settles O28: where the divisor and the dividend make a divide error, the divide is its entry. -/
theorem divideErrorTaken : Obligations.DivideErrorTaken := by
  unfold Obligations.DivideErrorTaken
  refine ⟨fun m s => ⟨fun h => ?div8, fun h => ?idiv8⟩, fun m s => ⟨fun h => ?div16, fun h => ?idiv16⟩, fun s => rfl⟩
  case div8 =>
    obtain ⟨-, he⟩ | ⟨hf, -⟩ := loaded8_div8_cases s m
    · exact congrArg Host.Outcome.next he
    · exact absurd ((div8Faults_iff _ _).mpr h) (by simp [hf])
  case idiv8 =>
    obtain ⟨-, he⟩ | ⟨hf, -⟩ := loaded8_idiv8_cases s m
    · exact congrArg Host.Outcome.next he
    · exact absurd ((idiv8Faults_iff _ _).mpr h) (by simp [hf])
  case div16 =>
    obtain ⟨-, he⟩ | ⟨hf, -⟩ := loaded16_div16_cases s m
    · exact congrArg Host.Outcome.next he
    · exact absurd ((div16Faults_iff _ _).mpr h) (by simp [hf])
  case idiv16 =>
    obtain ⟨-, he⟩ | ⟨hf, -⟩ := loaded16_idiv16_cases s m
    · exact congrArg Host.Outcome.next he
    · exact absurd ((idiv16Faults_iff _ _).mpr h) (by simp [hf])

/-- Settles O27: the quotient and the remainder fit where there is no divide error. -/
theorem divideQuotients : Obligations.DivideQuotients := by
  unfold Obligations.DivideQuotients
  refine ⟨fun m s hd hq => ?div8, fun m s hd hq => ?div16, fun m s hd h1 h2 => ?idiv8,
    fun m s hd h1 h2 => ?idiv16⟩
  case div8 =>
    have hf : (s.loaded8 m).div8Faults (s.rmByte m) = false := by
      rw [← Bool.not_eq_true, div8Faults_iff, State.loaded8_r16]; omega
    refine ⟨_, rfl, (calls_loaded8 s m).of_bus (div8_bus _ _ hf), ?_⟩
    rw [State.div8_al hf, State.div8_ah hf, State.loaded8_r16]
    exact ofNat_div_mod hd (s.rmByte m).isLt (Nat.lt_of_le_of_lt hq (by decide))
  case div16 =>
    have hf : (s.loaded16 m).div16Faults (s.rmWord m) = false := by
      rw [← Bool.not_eq_true, div16Faults_iff, State.loaded16_r16, State.loaded16_r16]; omega
    refine ⟨_, rfl, (calls_loaded16 s m).of_bus (div16_bus _ _ hf), ?_⟩
    rw [State.div16_ax hf, State.div16_dx hf, State.dxAx_toNat, State.loaded16_r16, State.loaded16_r16]
    exact ofNat_div_mod hd (s.rmWord m).isLt (Nat.lt_of_le_of_lt hq (by decide))
  case idiv8 =>
    have hf : (s.loaded8 m).idiv8Faults (s.rmByte m) = false := by
      rw [← Bool.not_eq_true, idiv8Faults_iff, State.loaded8_r16, State.loaded8_params]; omega
    have hb := toInt_byte_bounds (s.rmByte m)
    refine ⟨_, rfl, (calls_loaded8 s m).of_bus (idiv8_bus _ _ hf), ?_⟩
    rw [State.idiv8_al hf, State.idiv8_ah hf, State.loaded8_r16]
    exact ofInt_tdiv_tmod (by decide) hd (by norm_num; omega) (by norm_num; split at h1 <;> omega)
      (by norm_num; omega)
  case idiv16 =>
    have hf : (s.loaded16 m).idiv16Faults (s.rmWord m) = false := by
      rw [← Bool.not_eq_true, idiv16Faults_iff, State.loaded16_r16, State.loaded16_r16, State.loaded16_params]; omega
    have hb := toInt_word_bounds (s.rmWord m)
    refine ⟨_, rfl, (calls_loaded16 s m).of_bus (idiv16_bus _ _ hf), ?_⟩
    rw [State.idiv16_ax hf, State.idiv16_dx hf, State.dxAx_toInt, State.loaded16_r16, State.loaded16_r16]
    exact ofInt_tdiv_tmod (by decide) hd (by norm_num; omega) (by norm_num; split at h1 <;> omega)
      (by norm_num; omega)

end Sys2Proof.Machine
end

section
/-! Decimal adjusts (42_muldiv_bcd.md R306 to R311). -/

namespace Sys2Proof.Machine

/-- The low four bits of a byte as a number. -/
theorem and_fifteen_toNat (v : Byte) : (v &&& 0x0F).toNat = v.toNat % 16 := by
  rw [BitVec.toNat_and]
  exact Nat.and_two_pow_sub_one_eq_mod v.toNat 4

theorem State.lowDigitOver_eq (s : State) :
    s.lowDigitOver = (decide ((s.r8 .al).toNat % 16 > 9) || s.flags.af) := by
  exact congrArg (fun n => decide (n > 9) || s.flags.af) (and_fifteen_toNat _)

/-- SF, ZF and PF are those of the byte in AL. -/
def State.SzpOfAl (t : State) : Prop :=
  t.flags.zf = decide (t.r8 .al = 0) ∧ t.flags.sf = (t.r8 .al).msb ∧ t.flags.pf = evenParity (t.r8 .al)

/-- SF, ZF and PF stay AL's when only other flags are left undefined. -/
theorem szpOfAl_undefFlags {u : State} {f : Flags} (ns : List FlagName) (hf : u.flags = f.setSZP (u.r8 .al))
    (hz : .zf ∉ ns) (hs : .sf ∉ ns) (hp : .pf ∉ ns) : (State.undefFlags ns u).SzpOfAl := by
  have h := fun k (hk : k ∉ ns) => State.get_undefFlags_ne ns u hk
  rw [hf] at h
  rw [State.SzpOfAl, State.undefFlags_r8]
  exact ⟨(h .zf hz).trans (beq_eq_decide _ _), h .sf hs, h .pf hp⟩

theorem toNat_if_add (c : Bool) (a k : Byte) :
    (if c then a + k else a).toNat = (a.toNat + if c then k.toNat else 0) % 256 := by
  cases c
  · simp [Nat.mod_eq_of_lt a.isLt]
  · simp

theorem toNat_if_sub (c : Bool) (a k : Byte) :
    ((if c then a - k else a).toNat : Int) = ((a.toNat : Int) - if c then (k.toNat : Int) else 0) % 256 := by
  have ha := a.isLt
  have hk := k.isLt
  cases c
  · simp
    omega
  · simp [BitVec.toNat_sub]
    omega

theorem decimalAdd_leaves (s : State) :
    (s.decimalAdd.r8 .al).toNat =
      ((s.r8 .al).toNat + (if s.lowDigitOver then 6 else 0) + (if s.highDigitOver then 0x60 else 0)) % 256 ∧
    s.decimalAdd.flags.af = s.lowDigitOver ∧ s.decimalAdd.flags.cf = s.highDigitOver ∧ s.decimalAdd.SzpOfAl := by
  refine ⟨?_, State.get_undefFlag_ne (k := .af) _ (by decide), State.get_undefFlag_ne (k := .cf) _ (by decide),
    szpOfAl_undefFlags [.ovf] (by rw [State.setFlags_r8, State.r8_setR8_self]; rfl)
      (by decide) (by decide) (by decide)⟩
  rw [State.decimalAdd, State.undefFlag_r8, State.setFlags_r8, State.r8_setR8_self, toNat_if_add, toNat_if_add]
  exact Nat.mod_add_mod _ _ _

theorem decimalSub_leaves (s : State) :
    ((s.decimalSub.r8 .al).toNat : Int) =
      (((s.r8 .al).toNat : Int) - (if s.lowDigitOver then 6 else 0) - (if s.highDigitOver then 0x60 else 0)) % 256 ∧
    s.decimalSub.flags.af = s.lowDigitOver ∧
    s.decimalSub.flags.cf =
      (s.highDigitOver || (s.lowDigitOver && (s.flags.cf || decide ((s.r8 .al).toNat < 6)))) ∧
    s.decimalSub.SzpOfAl := by
  refine ⟨?_, State.get_undefFlag_ne (k := .af) _ (by decide), State.get_undefFlag_ne (k := .cf) _ (by decide),
    szpOfAl_undefFlags [.ovf] (by rw [State.setFlags_r8, State.r8_setR8_self]; rfl)
      (by decide) (by decide) (by decide)⟩
  rw [State.decimalSub, State.undefFlag_r8, State.setFlags_r8, State.r8_setR8_self, toNat_if_sub, toNat_if_sub]
  exact Int.emod_sub_emod _ _ _

theorem asciiAdjust_leaves (s : State) (al ah : Byte) :
    ((s.asciiAdjust al ah).r8 .al).toNat = (if s.lowDigitOver then al else s.r8 .al).toNat % 16 ∧
    (s.asciiAdjust al ah).r8 .ah = (if s.lowDigitOver then ah else s.r8 .ah) ∧
    (s.asciiAdjust al ah).flags.af = s.lowDigitOver ∧ (s.asciiAdjust al ah).flags.cf = s.lowDigitOver := by
  refine ⟨?_, ?_, State.get_undefFlags_ne (k := .af) _ _ (by decide),
    State.get_undefFlags_ne (k := .cf) _ _ (by decide)⟩
  · rw [State.asciiAdjust, State.undefFlags_r8, State.setFlags_r8, State.r8_setR8_ne _ _ (by decide),
      State.r8_setR8_self, and_fifteen_toNat]
  · rw [State.asciiAdjust, State.undefFlags_r8, State.setFlags_r8, State.r8_setR8_self]

theorem asciiJoin_leaves (s : State) (b : Byte) :
    ((s.asciiJoin b).r8 .al).toNat = ((s.r8 .al).toNat + (s.r8 .ah).toNat * b.toNat) % 256 ∧
    (s.asciiJoin b).r8 .ah = 0 ∧ (s.asciiJoin b).SzpOfAl := by
  refine ⟨?_, ?_, szpOfAl_undefFlags _ (by
    rw [State.setFlags_r8, State.r8_setR8_ne _ _ (by decide : Reg8.al ≠ .ah), State.r8_setR8_self]; rfl)
    (by decide) (by decide) (by decide)⟩
  · rw [State.asciiJoin, State.undefFlags_r8, State.setFlags_r8, State.r8_setR8_ne _ _ (by decide),
      State.r8_setR8_self, BitVec.toNat_add, BitVec.toNat_mul]
    exact Nat.add_mod_mod _ _ _
  · rw [State.asciiJoin, State.undefFlags_r8, State.setFlags_r8, State.r8_setR8_self]

theorem asciiSplit_leaves (s : State) {b : Byte} (h : b ≠ 0) :
    ((s.asciiSplit b).r8 .ah).toNat = (s.r8 .al).toNat / b.toNat ∧
    ((s.asciiSplit b).r8 .al).toNat = (s.r8 .al).toNat % b.toNat ∧ (s.asciiSplit b).SzpOfAl := by
  have hal := (s.r8 .al).isLt
  rw [State.asciiSplit_eq s h]
  refine ⟨?_, ?_, szpOfAl_undefFlags _ (by rw [State.setFlags_r8, State.r8_setR8_self]; rfl) (by decide) (by decide)
    (by decide)⟩
  · rw [State.undefFlags_r8, State.setFlags_r8, State.r8_setR8_ne _ _ (by decide), State.r8_setR8_self,
      BitVec.toNat_ofNat, Nat.mod_eq_of_lt ((Nat.div_le_self _ _).trans_lt hal)]
  · rw [State.undefFlags_r8, State.setFlags_r8, State.r8_setR8_self, BitVec.toNat_ofNat,
      Nat.mod_eq_of_lt ((Nat.mod_le _ _).trans_lt hal)]

/-- Settles O29: each adjust by what it leaves. -/
theorem decimalAdjust : Obligations.DecimalAdjust := by
  unfold Obligations.DecimalAdjust
  intro s al ah low high
  have hl : low = s.lowDigitOver := s.lowDigitOver_eq.symm
  rw [hl]
  refine ⟨⟨_, rfl, decimalAdd_leaves s⟩, ⟨_, rfl, decimalSub_leaves s⟩, ?aaa, ?aas,
    fun b => ⟨_, rfl, asciiJoin_leaves s b⟩, fun b hb => ⟨_, rfl, asciiSplit_leaves s hb⟩⟩
  case aaa =>
    obtain ⟨h1, h2, h3⟩ := asciiAdjust_leaves s (s.r8 .al + 6) (s.r8 .ah + 1)
    refine ⟨_, rfl, h1.trans ?_, (congrArg BitVec.toNat h2).trans (toNat_if_add _ _ _), h3⟩
    rw [toNat_if_add]
    exact Nat.mod_mod_of_dvd _ (by decide)
  case aas =>
    obtain ⟨h1, h2, h3⟩ := asciiAdjust_leaves s (s.r8 .al - 6) (s.r8 .ah - 1)
    refine ⟨_, rfl, ?_, (congrArg (fun v => (BitVec.toNat v : Int)) h2).trans (toNat_if_sub _ _ _), h3⟩
    rw [h1, Int.natCast_mod, toNat_if_sub]
    exact Int.emod_emod_of_dvd _ (by decide)

/-- DAA on the sum of two packed decimals, the first `p q`, the second `r t`, by the digits' carries. -/
theorem daa_digits {p q r t : Nat} (hp : p < 10) (hq : q < 10) (hr : r < 10) (ht : t < 10) :
    let v := 16 * p + q + (16 * r + t)
    let low := v % 256 % 16 > 9 ∨ q + t ≥ 16
    let high := v % 256 > 0x99 ∨ v ≥ 256
    (v % 256 + (if low then 6 else 0) + if high then 0x60 else 0) % 256 =
      16 * ((10 * p + q + (10 * r + t)) % 100 / 10) + (10 * p + q + (10 * r + t)) % 10 ∧
    (high ↔ 10 * p + q + (10 * r + t) ≥ 100) := by
  intro v low high
  have hl : low ↔ q + t ≥ 10 := by omega
  have hh : high ↔ p + r + (q + t) / 10 ≥ 10 := by omega
  have hlow : (10 * p + q + (10 * r + t)) % 10 = (q + t) % 10 := by omega
  have hhigh : (10 * p + q + (10 * r + t)) % 100 / 10 = (p + r + (q + t) / 10) % 10 := by omega
  refine ⟨?_, by omega⟩
  rw [if_congr hl rfl rfl, if_congr hh rfl rfl, hlow, hhigh]
  clear hl hh low high hlow hhigh
  split <;> split <;> omega

/-- Settles O30: the digits' sums tell which of them DAA adjusts. -/
theorem decimalAddition : Obligations.DecimalAddition := by
  unfold Obligations.DecimalAddition
  intro s x y hx hy hm hal
  have hb : (BitVec.ofNat 8 (16 * (y / 10) + y % 10)).toNat = 16 * (y / 10) + y % 10 := by
    rw [BitVec.toNat_ofNat]
    omega
  generalize BitVec.ofNat 8 (16 * (y / 10) + y % 10) = b at hb ⊢
  obtain ⟨hf, hr⟩ := alu8_reg_leaves s .add .al b
  obtain ⟨h1, -, h3, -⟩ := decimalAdd_leaves (s.aluAlIb .add b)
  have hsum : ((s.aluAlIb .add b).r8 .al).toNat = (16 * (x / 10) + x % 10 + (16 * (y / 10) + y % 10)) % 256 := by
    rw [← hal, ← hb]
    exact (congrArg BitVec.toNat hr).trans (addResult_toNat _ _ _)
  have haf : (s.aluAlIb .add b).flags.af = decide (x % 10 + y % 10 ≥ 16) := by
    rw [State.aluAlIb, hf, hm, Bool.eq_iff_iff, AluOp.flags, addFlags_af_iff _ _ _ _ (.inl rfl), hal, hb,
      Bool.toNat_false, decide_eq_true_iff]
    omega
  have hcf : (s.aluAlIb .add b).flags.cf = decide (16 * (x / 10) + x % 10 + (16 * (y / 10) + y % 10) ≥ 256) := by
    rw [State.aluAlIb, hf, AluOp.flags, addFlags_eq, addRaw_eq, hal, hb, Bool.toNat_false, decide_eq_decide]
    omega
  obtain ⟨hd, hc⟩ := daa_digits (p := x / 10) (q := x % 10) (r := y / 10) (t := y % 10) (by omega) (by omega)
    (by omega)
    (by omega)
  rw [Nat.div_add_mod, Nat.div_add_mod] at hd hc
  refine ⟨_, _, exec_aluAlIb .add b s, rfl, h1.trans (.trans ?_ hd), h3.trans ?_⟩
  · simp only [State.lowDigitOver_eq, State.highDigitOver, hsum, haf, hcf, Bool.or_eq_true, decide_eq_true_eq]
  · rw [Bool.eq_iff_iff, decide_eq_true_iff, ← hc]
    simp only [State.highDigitOver, hsum, hcf, Bool.or_eq_true, decide_eq_true_eq]

end Sys2Proof.Machine
end

section
/-! Jumps, loops, software interrupts and the control instructions (43_control_transfer.md,
48_interrupt_instr.md, 49_processor_control.md). -/

namespace Sys2Proof.Machine

/-- Settles O31: each condition by its definition, the target by the displacement's sign. -/
theorem conditionalJumps : Obligations.ConditionalJumps := by
  unfold Obligations.ConditionalJumps
  intro d s
  rw [← add_sext16_eq_ofInt]
  exact ⟨rfl, rfl, rfl, rfl, rfl, rfl, rfl, rfl, rfl, rfl, rfl, rfl, rfl, rfl, rfl, rfl⟩

/-- Settles O32: the targets by their displacements; a far pointer by its two words. -/
theorem jumps : Obligations.Jumps := by
  unfold Obligations.Jumps
  refine ⟨fun d s => ?short, fun d s => ?near, fun off sg s => rfl, fun m s => ⟨rfl, calls_loaded16 s m⟩,
    fun p s => ?far⟩
  case short => rw [← add_sext16_eq_ofInt]; rfl
  case near => rw [← add_eq_ofInt]; rfl
  case far =>
    obtain ⟨ho, hs, hc⟩ := far_decodedMem s p
    refine ⟨?_, hc⟩
    rw [← ho, ← hs]
    rfl

/-- A branch by its condition. -/
theorem State.branch_decide (s : State) {c : Bool} {p : Prop} [Decidable p] (d : Byte) (h : c = true ↔ p) :
    s.branch c (sext16 d) = if p then s.setIp (BitVec.ofInt 16 (s.ip.toNat + d.toInt)) else s := by
  rw [← add_sext16_eq_ofInt]
  exact if_congr h rfl rfl

/-- Counting CX down leaves it 0 exactly from 1 (43_control_transfer.md R356). -/
theorem State.countDown_cx_ne (s : State) : (s.countDown.r16 .cx != 0) = true ↔ s.r16 .cx ≠ 1 := by
  rw [bne_iff_ne, State.countDown, State.r16_setR16_self]
  exact not_congr sub_eq_zero

/-- Settles O36: each loop's condition after CX is counted down. -/
theorem loops : Obligations.Loops := by
  unfold Obligations.Loops
  intro d s
  refine ⟨congrArg Host.Outcome.next (s.countDown.branch_decide d s.countDown_cx_ne),
    congrArg Host.Outcome.next (s.countDown.branch_decide d ?z),
    congrArg Host.Outcome.next (s.countDown.branch_decide d ?nz),
    congrArg Host.Outcome.next (s.branch_decide d beq_iff_eq)⟩
  case z => rw [Bool.and_eq_true, s.countDown_cx_ne]
  case nz => rw [Bool.and_eq_true, s.countDown_cx_ne, Bool.not_eq_true']

/-- Settles O46: each by its definition; ESC by what the decoder does. -/
theorem controlAndPrefixes : Obligations.ControlAndPrefixes := by
  unfold Obligations.ControlAndPrefixes
  refine ⟨fun s => ⟨rfl, rfl, rfl, rfl, rfl, rfl, rfl, rfl, rfl, rfl, rfl, rfl, rfl, rfl, rfl, rfl, rfl⟩,
    fun k q m s => ?_⟩
  cases m with
  | reg r => rfl
  | mem p => exact congrArg Host.Outcome.next (s.decodedMem_eq p)

/-- Settles O48: by their definitions; an entry's SP and flags do not look at IF. -/
theorem softwareInterrupts : Obligations.SoftwareInterrupts := by
  unfold Obligations.SoftwareInterrupts
  intro s
  refine ⟨⟨_, rfl, rfl, rfl⟩, fun h => ⟨_, congrArg Host.Outcome.next (if_pos h), rfl⟩,
    fun h => congrArg Host.Outcome.next (if_neg (by simp [h])), fun n b => ⟨_, _, rfl, rfl, ?_, ?_⟩⟩
  · rw [State.serviceInterrupt_r16, State.serviceInterrupt_r16]
    rfl
  · rw [State.serviceInterrupt_flags, State.serviceInterrupt_flags]

end Sys2Proof.Machine
end

section
/-! Calls, returns, pushes and pops (43_control_transfer.md sections 3 and 4, 46_stack.md). -/

namespace Sys2Proof.Machine

variable {s t : State}

/-! ## Words held below SP -/

theorem State.sp_sub_two_two (s : State) : s.r16 .sp - 2 - 2 = s.r16 .sp - 4 := by bv_omega

theorem State.sp_add_two_two (s : State) : s.r16 .sp + 2 + 2 = s.r16 .sp + 4 := by bv_omega

/-- A read keeps what memory holds. -/
theorem State.HoldsWord.afterPop {pa : PAddr} {v : Word} (h : t.HoldsWord pa v) : t.afterPop.HoldsWord pa v :=
  ⟨h.1.mono rfl rfl, h.2.mono rfl rfl⟩

/-- The second of two words pushed, at SP - 4. -/
theorem holdsWord_push_push (s : State) (v w : Word) :
    ((s.push v).push w).HoldsWord (phys (s.sreg .ss) (s.r16 .sp - 4)) w := by
  have h := holdsWord_push (s.push v) w
  rwa [State.push_r16, if_pos rfl, State.sp_sub_two_two, State.push_sreg] at h

/-- The first of two words pushed, at SP - 2. -/
theorem holdsWord_push_of_push (s : State) (v w : Word) :
    ((s.push v).push w).HoldsWord (phys (s.sreg .ss) (s.r16 .sp - 2)) v := by
  refine (holdsWord_push s v).push (t := s.push v) w ?_ ?_ ?_ <;> rw [State.push_r16, if_pos rfl] <;> bv_omega

theorem calls_push_push (s : State) (v w : Word) : s.Calls ((s.push v).push w)
    [.writeWord (phys (s.sreg .ss) (s.r16 .sp - 4)) w, .writeWord (phys (s.sreg .ss) (s.r16 .sp - 2)) v] := by
  have h := calls_push (s.push v) w
  rw [State.push_r16, if_pos rfl, State.sp_sub_two_two, State.push_sreg] at h
  exact (calls_push s v).trans h

theorem push_push_sp (s : State) (v w : Word) : ((s.push v).push w).r16 .sp = s.r16 .sp - 4 := by
  rw [State.push_r16, if_pos rfl, State.push_r16, if_pos rfl, State.sp_sub_two_two]

/-! ## Calls and returns -/

theorem exec_callMp (p : MemOp) (s : State) : exec (.callMp p) s =
    .next ((((s.decodedMem p).afterFar (s.ea p)).callFarTo ((s.decodedMem p).farOffset (s.ea p))
      ((s.decodedMem p).farSegment (s.ea p)))) := rfl

/-- Settles O33: each call is one push or two, then the jump. -/
theorem calls : Obligations.Calls := by
  unfold Obligations.Calls
  refine ⟨fun d s => ⟨_, rfl, add_eq_ofInt _ _, (State.push_r16 s s.ip .sp).trans (if_pos rfl),
      (holdsWord_push s _).of_bus rfl, rfl, calls_push s _⟩, fun m s => ?near, fun off sg s => ?far,
    fun p s => ?farPtr⟩
  case near =>
    have hp := holdsWord_push (s.loaded16 m) s.ip
    have hc := calls_push (s.loaded16 m) s.ip
    rw [State.loaded16_r16, State.loaded16_sreg] at hp hc
    refine ⟨_, rfl, rfl, ?_, hp.of_bus rfl, ?_, (calls_loaded16 s m).trans hc⟩
    · rw [State.setIp_r16, State.push_r16, if_pos rfl, State.loaded16_r16]
    · rw [State.setIp_sreg, State.push_sreg, State.loaded16_sreg]
  case far =>
    exact ⟨_, rfl, rfl, State.sreg_setSreg_self _ _ _, push_push_sp s (s.sreg .cs) s.ip,
      (holdsWord_push_of_push s _ _).of_bus rfl, (holdsWord_push_push s _ _).of_bus rfl, calls_push_push s _ _⟩
  case farPtr =>
    obtain ⟨ho, hs, hc⟩ := far_decodedMem s p
    rw [exec_callMp, ho, hs]
    have hr : ∀ q, ((s.decodedMem p).afterFar (s.ea p)).r16 q = s.r16 q := fun q => by simp [State.afterFar]
    have hg : ∀ g, ((s.decodedMem p).afterFar (s.ea p)).sreg g = s.sreg g := fun g => by simp [State.afterFar]
    have hi : ((s.decodedMem p).afterFar (s.ea p)).ip = s.ip := by simp [State.afterFar]
    generalize (s.decodedMem p).afterFar (s.ea p) = u at hc hr hg hi
    have h1 := holdsWord_push_of_push u (u.sreg .cs) u.ip
    have h2 := holdsWord_push_push u (u.sreg .cs) u.ip
    have h3 := push_push_sp u (u.sreg .cs) u.ip
    have h4 := calls_push_push u (u.sreg .cs) u.ip
    rw [hr, hg, hg, hi] at h1 h2 h4
    rw [hr, hg, hi] at h3
    refine ⟨_, rfl, rfl, State.sreg_setSreg_self _ _ _, ?_, ?_, ?_, ?_⟩ <;> rw [State.callFarTo, hg, hi]
    · exact h3
    · exact h1.of_bus rfl
    · exact h2.of_bus rfl
    · exact hc.trans h4

theorem calls_afterPop_afterPop (s : State) : s.Calls s.afterPop.afterPop
    [.readWord (phys (s.sreg .ss) (s.r16 .sp + 2)) ((s.afterReadWord (phys (s.sreg .ss) (s.r16 .sp))).readWord
      (phys (s.sreg .ss) (s.r16 .sp + 2))), .readWord (phys (s.sreg .ss) (s.r16 .sp)) s.popValue] :=
  (calls_afterPop s).trans (calls_afterPop s.afterPop)

theorem afterPop_afterPop_sp (s : State) : s.afterPop.afterPop.r16 .sp = s.r16 .sp + 4 := s.sp_add_two_two

theorem releaseStack_sp (s : State) (n : Word) : (s.releaseStack n).r16 .sp = s.r16 .sp + n :=
  State.r16_setR16_self _ _ _

theorem retf_leaves (s : State) : (s.popIp.popSreg .cs).ip = s.readWord (phys (s.sreg .ss) (s.r16 .sp)) ∧
    (s.popIp.popSreg .cs).sreg .cs = (s.afterReadWord (phys (s.sreg .ss) (s.r16 .sp))).readWord
      (phys (s.sreg .ss) (s.r16 .sp + 2)) ∧ (s.popIp.popSreg .cs).r16 .sp = s.r16 .sp + 4 ∧
    (s.popIp.popSreg .cs).bus = s.afterPop.afterPop.bus := by
  rw [State.popIp_popSreg_eq]
  exact ⟨rfl, rfl, afterPop_afterPop_sp s, rfl⟩

/-- Settles O34: each return is one pop or two, then the stack's adjustment. -/
theorem returns : Obligations.Returns := by
  unfold Obligations.Returns
  intro n s
  obtain ⟨hi, hc, hs, hb⟩ := retf_leaves s
  refine ⟨⟨_, rfl, rfl, rfl, (State.afterPop_r16 s .sp).trans (if_pos rfl), calls_afterPop s⟩,
    ⟨_, rfl, rfl, rfl, ?retIw, calls_afterPop s⟩, ⟨_, rfl, hi, hc, hs, (calls_afterPop_afterPop s).of_bus hb⟩,
    ⟨_, rfl, hi, hc, ?retfIw, (calls_afterPop_afterPop s).of_bus hb⟩⟩
  case retIw =>
    rw [releaseStack_sp]
    exact congrArg (· + n) ((State.afterPop_r16 s .sp).trans (if_pos rfl))
  case retfIw => rw [releaseStack_sp, hs]

/-! ## What a pop makes of a push -/

theorem push_afterPop_regs (s : State) (v : Word) : (s.push v).afterPop.regs = s.regs := by
  have h : s.r16 .sp - 2 + 2 = s.r16 .sp := sub_add_cancel _ _
  show (s.regs.set .sp (s.r16 .sp - 2)).set .sp ((s.push v).r16 .sp + 2) = s.regs
  rw [State.push_r16, if_pos rfl, Regs.set_set, h]
  exact Regs.set_get _ _

/-- The second of two pops answers the first of two pushes. -/
theorem popValue_afterPop_push_push (s : State) (v w : Word) (h : s.RamWord (phys (s.sreg .ss) (s.r16 .sp - 2))) :
    ((s.push v).push w).afterPop.popValue = v := by
  have e : s.r16 .sp - 4 + 2 = s.r16 .sp - 2 := by bv_omega
  have k := (holdsWord_push_of_push s v w).afterPop.readWord h
  rwa [← e, ← push_push_sp s v w] at k

theorem popValue_push_push (s : State) (v w : Word) (h : s.RamWord (phys (s.sreg .ss) (s.r16 .sp - 4))) :
    ((s.push v).push w).popValue = w := by
  refine popValue_push (s.push v) w ?_
  rw [State.push_r16, if_pos rfl, State.sp_sub_two_two]
  exact h

theorem push_push_afterPop_regs (s : State) (v w : Word) : ((s.push v).push w).afterPop.afterPop.regs = s.regs := by
  have h : ((s.push v).push w).afterPop.afterPop.regs = (s.push v).afterPop.regs := by
    have k := push_afterPop_regs (s.push v) w
    show ((s.push v).push w).afterPop.regs.set .sp (((s.push v).push w).afterPop.regs.get .sp + 2) = _
    rw [k]
    rfl
  rw [h, push_afterPop_regs]

/-- Settles O35: the popped words are the pushed ones. -/
theorem callThenReturn : Obligations.CallThenReturn := by
  unfold Obligations.CallThenReturn
  refine ⟨fun d x s h => ⟨_, _, rfl, rfl, popValue_push s s.ip h, push_afterPop_regs s s.ip, rfl, rfl⟩,
    fun off sg x s h2 h4 => ⟨_, _, rfl, rfl, ?_⟩⟩
  rw [State.popIp_popSreg_eq]
  refine ⟨popValue_push_push s _ s.ip h4, push_push_afterPop_regs s _ s.ip, ?_, rfl⟩
  have hcs := popValue_afterPop_push_push s (s.sreg .cs) s.ip h2
  exact congrArg (fun v => { s.segs with cs := v }) hcs

/-- Settles O44: the popped word is the pushed one. -/
theorem pushThenPop : Obligations.PushThenPop := by
  unfold Obligations.PushThenPop
  intro s h
  have pop : ∀ v q, ((s.push v).afterPop.setR16 q (s.push v).popValue).regs = s.regs.set q v := fun v q => by
    rw [popValue_push s v h]
    exact congrArg (fun g => Regs.set g q v) (push_afterPop_regs s v)
  refine ⟨fun r hr => ⟨_, _, rfl, rfl, (pop _ _).trans ?_⟩, fun r q hr hq => ⟨_, _, rfl, rfl, (pop _ _).trans ?_⟩,
    ⟨_, _, rfl, rfl, pop _ _⟩⟩ <;> rw [State.pushedValue, if_neg (by simpa using hr)]
  · exact Regs.set_get _ _
  · rfl

/-! ## Pushes and pops -/

theorem push_leaves (s : State) (v : Word) : (s.push v).r16 .sp = s.r16 .sp - 2 ∧
    (s.push v).HoldsWord (phys (s.sreg .ss) (s.r16 .sp - 2)) v ∧
    s.Calls (s.push v) [.writeWord (phys (s.sreg .ss) (s.r16 .sp - 2)) v] :=
  ⟨(State.push_r16 _ _ _).trans (if_pos rfl), holdsWord_push s v, calls_push s v⟩

/-- `PUSH r16` by the value it stores (46_stack.md R452). -/
theorem exec_pushR16 (r : Reg16) (s : State) : exec (.pushR16 r) s =
    .next (s.push (if r = .sp then s.r16 .sp - 2 else s.r16 r)) :=
  congrArg (fun v => Host.Outcome.next (s.push v)) (if_congr (by rw [Operand.reg.injEq]) rfl rfl)

/-- `PUSH Ev` by the value it stores (46_stack.md R454). -/
theorem exec_pushEv (m : Rm Reg16) (s : State) : exec (.pushEv m) s =
    .next ((s.loaded16 m).push (if m = .reg .sp then s.r16 .sp - 2 else s.rmWord m)) := by
  cases m with
  | reg r =>
    exact (exec_pushR16 r s).trans (congrArg (fun v => Host.Outcome.next (s.push v))
      (if_congr (by rw [Rm.reg.injEq]) rfl rfl))
  | mem p => rfl

/-- Settles O42: each push by the value it stores. -/
theorem pushForms : Obligations.PushForms := by
  unfold Obligations.PushForms
  intro s
  refine ⟨fun r => ⟨_, exec_pushR16 r s, push_leaves s _⟩, fun g => ⟨_, rfl, push_leaves s _⟩,
    fun m => ⟨_, exec_pushEv m s, ?_⟩, ⟨_, rfl, push_leaves s _⟩⟩
  obtain ⟨hs, hh, hc⟩ := push_leaves (s.loaded16 m) (if m = .reg .sp then s.r16 .sp - 2 else s.rmWord m)
  rw [State.loaded16_r16, State.loaded16_sreg] at hh hc
  rw [State.loaded16_r16] at hs
  exact ⟨hs, hh, (calls_loaded16 s m).trans hc⟩

theorem afterPop_sp (s : State) : s.afterPop.r16 .sp = s.r16 .sp + 2 := (State.afterPop_r16 s .sp).trans (if_pos rfl)

/-- A write of another operand than SP keeps SP. -/
theorem writeOp16_operand_sp (s : State) {m : Rm Reg16} (h : m ≠ .reg .sp) (t : State) (v : Word) :
    (t.writeOp16 (s.operand m) v).r16 .sp = t.r16 .sp := by
  cases m with
  | reg r => exact State.r16_setR16_ne _ _ (fun e => h (congrArg Rm.reg e.symm))
  | mem p => exact State.writeWord_r16 _ _ _ _

/-- Settles O43: each pop by where its word goes. -/
theorem popForms : Obligations.PopForms := by
  unfold Obligations.PopForms
  intro s
  refine ⟨fun r => ⟨_, rfl, State.r16_setR16_self _ _ _, fun hr => ?reg, calls_afterPop s⟩,
    fun g => ⟨_, rfl, State.sreg_setSreg_self _ _ _, afterPop_sp s, calls_afterPop s⟩, fun m => ?rm,
    ⟨_, rfl, afterPop_sp s, rfl, calls_afterPop s⟩⟩
  case reg => rw [State.r16_setR16_ne _ _ (Ne.symm hr), afterPop_sp]
  case rm =>
    have hp : (s.decoded m).popValue = s.popValue := by simp [State.popValue_eq]
    have hc : s.Calls (s.decoded m).afterPop [.readWord (phys (s.sreg .ss) (s.r16 .sp)) s.popValue] := by
      have h := calls_afterPop (s.decoded m)
      rwa [State.Calls, State.decoded_bus, State.decoded_sreg, State.decoded_r16, hp] at h
    refine ⟨_, rfl, ?_, fun hm => ?_, ?_⟩ <;> rw [hp]
    · exact rmHolds16_writeOp16 s m _ rfl
    · rw [writeOp16_operand_sp s hm, afterPop_sp, State.decoded_r16]
    · exact hc.trans (calls_writeOp16 s m _ rfl)

end Sys2Proof.Machine
end

section
/-! Ports and interrupt entry (47_io.md, 60_exceptions.md section 3). -/

namespace Sys2Proof.Machine

variable {s t : State}

/-! ## Ports -/

/-- A port answer made ready is taken (20_memory.md R83). -/
theorem State.afterIoRead_bus_of_cons (s : State) (port : Word) {b : Byte} {bs : List Byte}
    (h : s.bus.portIn = b :: bs) :
    s.portAnswer = b ∧
    (s.afterIoRead port).bus = { s.bus with portIn := bs, calls := .ioRead port b :: s.bus.calls } := by
  have ha : s.portAnswer = b := by simp [State.portAnswer, Bus.portOracle, h]
  rw [State.afterIoRead, ha]
  exact ⟨rfl, by simp [Bus.portAnswered, Bus.note, h]⟩

/-- With no port answer ready it is a free value (20_memory.md R83). -/
theorem State.afterIoRead_bus_of_nil (s : State) (port : Word) (h : s.bus.portIn = []) :
    s.portAnswer = Config.freePortByte s.bus.draws ∧ (s.afterIoRead port).bus = { s.bus with
      draws := s.bus.draws + 1, calls := .ioRead port (Config.freePortByte s.bus.draws) :: s.bus.calls } := by
  have ha : s.portAnswer = Config.freePortByte s.bus.draws := by simp [State.portAnswer, Bus.portOracle, h]
  rw [State.afterIoRead, ha]
  exact ⟨rfl, by simp [Bus.portAnswered, Bus.note, h]⟩

/-- IN in both its forms (47_io.md R480). -/
theorem exec_in (i : Byte) (s : State) {port : Word} {j : Instr}
    (h : j = .inAlIb i ∧ port = i.setWidth 16 ∨ j = .inAlDx ∧ port = s.r16 .dx) :
    exec j s = .next ((s.afterIoRead port).setR8 .al s.portAnswer) := by
  rcases h with ⟨rfl, rfl⟩ | ⟨rfl, rfl⟩ <;> rfl

/-- Settles O45: IN by the answer ready or free, OUT by its call. -/
theorem ports : Obligations.Ports := by
  unfold Obligations.Ports
  refine fun i s => ⟨fun port j hj => ⟨fun b bs h => ?ready, fun h => ?free⟩, rfl, rfl⟩
  case ready =>
    obtain ⟨ha, hb⟩ := s.afterIoRead_bus_of_cons port h
    exact ⟨_, exec_in i s hj, (State.r8_setR8_self _ _ _).trans ha, hb⟩
  case free =>
    obtain ⟨ha, hb⟩ := s.afterIoRead_bus_of_nil port h
    exact ⟨_, exec_in i s hj, (State.r8_setR8_self _ _ _).trans ha, hb⟩

/-! ## Interrupt entry -/

/-- The three words on the stack after an entry: FLAGS, CS and IP downwards (60_exceptions.md R620). -/
theorem serviceInterrupt_holds (s : State) (n : Byte) :
    (s.serviceInterrupt n).HoldsWord (phys (s.sreg .ss) (s.r16 .sp - 2)) s.packed ∧
    (s.serviceInterrupt n).HoldsWord (phys (s.sreg .ss) (s.r16 .sp - 4)) (s.sreg .cs) ∧
    (s.serviceInterrupt n).HoldsWord (phys (s.sreg .ss) (s.r16 .sp - 6)) s.ip := by
  have held : ∀ k v, (k = 2 ∧ v = s.packed ∨ k = 4 ∧ v = s.sreg .cs ∨ k = 6 ∧ v = s.ip) →
      (s.serviceInterrupt n).HoldsWord (phys (s.sreg .ss) (s.r16 .sp - k)) v := fun k v h => by
    obtain ⟨hl, hh⟩ := s.serviceInterrupt_words n k v h
    exact ⟨fun hk => hl (by rwa [State.serviceInterrupt_kindAt] at hk),
      fun hk => hh (by rwa [State.serviceInterrupt_kindAt] at hk)⟩
  exact ⟨held 2 _ (by simp), held 4 _ (by simp), held 6 _ (by simp)⟩

theorem vectorAddr_toNat (n : Byte) : (vectorAddr n).toNat = n.toNat * 4 := by
  have h := n.isLt
  rw [vectorAddr, BitVec.toNat_shiftLeft, BitVec.toNat_setWidth_of_le (by decide), Nat.shiftLeft_eq]
  exact Nat.mod_eq_of_lt (by omega)

/-- The two bytes of a word memory holds. -/
theorem bytes_of_memWord {pa : PAddr} {v : Word} (h : s.memWord pa = some v) :
    ∃ lo hi, s.memByte pa = some lo ∧ s.memByte (pa + 1) = some hi ∧ leWord lo hi = v := by
  unfold State.memWord at h
  split at h
  · next lo hi h0 h1 => exact ⟨lo, hi, h0, h1, Option.some.inj h⟩
  · cases h

/-- The six bytes an entry stores, word by word from the top. -/
theorem mem_pushBytes_three (s : State) {k : Word} (hk : k = 2 ∨ k = 4 ∨ k = 6) :
    phys (s.sreg .ss) (s.r16 .sp - k) ∈ s.pushBytes 3 ∧ phys (s.sreg .ss) (s.r16 .sp - k) + 1 ∈ s.pushBytes 3 := by
  rcases hk with rfl | rfl | rfl <;> simp [State.pushBytes, wordBytes]

/-- Settles O47: the pushes and the vector's words in the entry's order. -/
theorem interruptEntry : Obligations.InterruptEntry := by
  unfold Obligations.InterruptEntry
  intro n s
  obtain ⟨h2, h4, h6⟩ := serviceInterrupt_holds s n
  refine ⟨_, rfl, h2, h4, h6, (s.serviceInterrupt_r16 n .sp).trans (if_pos rfl), s.serviceInterrupt_flags n,
    fun v hv => ?_⟩
  obtain rfl : v = vectorAddr n := BitVec.eq_of_toNat_eq (hv.trans (vectorAddr_toNat n).symm)
  refine ⟨s.serviceInterrupt_calls n, fun h x => ?_⟩
  have apart : ∀ k : Word, k = 2 ∨ k = 4 ∨ k = 6 → ∀ j : PAddr, j = 0 ∨ j = 1 ∨ j = 2 ∨ j = 3 →
      vectorAddr n + j ≠ phys (s.sreg .ss) (s.r16 .sp - k) ∧
      vectorAddr n + j ≠ phys (s.sreg .ss) (s.r16 .sp - k) + 1#20 := by
    intro k hk j hj
    obtain ⟨m0, m1⟩ := mem_pushBytes_three s hk
    have off : ∀ pa ∈ s.pushBytes 3, vectorAddr n + j ≠ pa := fun pa hpa => by
      obtain ⟨a0, a1, a2, a3⟩ := h pa hpa
      rcases hj with rfl | rfl | rfl | rfl
      · exact (add_zero (vectorAddr n)).symm ▸ a0.symm
      · exact a1.symm
      · exact a2.symm
      · exact a3.symm
    exact ⟨off _ m0, off _ m1⟩
  have vec := fun lo hi => s.serviceInterrupt_vector n apart (lo := lo) (hi := hi)
  constructor <;> intro hx <;> obtain ⟨lo, hi, hlo, hhi, rfl⟩ := bytes_of_memWord hx
  · exact (vec lo hi).1 hlo hhi
  · refine (vec lo hi).2 hlo ?_
    have e : vectorAddr n + 2 + 1 = vectorAddr n + 3 := by bv_omega
    rwa [e] at hhi

/-! ## IRET after an entry -/

/-- IRET's three reads (48_interrupt_instr.md R494). -/
theorem calls_returnFromInterrupt (s : State) : s.Calls s.returnFromInterrupt
    [.readWord (phys (s.sreg .ss) (s.r16 .sp + 4)) s.afterPop.afterPop.popValue,
      .readWord (phys (s.sreg .ss) (s.r16 .sp + 2)) s.afterPop.popValue,
      .readWord (phys (s.sreg .ss) (s.r16 .sp)) s.popValue] := by
  have h := calls_afterPop s.afterPop.afterPop
  rw [afterPop_afterPop_sp] at h
  rw [State.returnFromInterrupt_eq]
  exact ((calls_afterPop_afterPop s).trans h).of_bus rfl

theorem SegRegs.ext_get {g k : SegRegs} (h : ∀ r, g.get r = k.get r) : g = k := by
  have h0 := h .cs
  have h1 := h .ds
  have h2 := h .es
  have h3 := h .ss
  cases g
  cases k
  simp_all [SegRegs.get]

/-- Settles O50: the words popped are those the entry pushed. -/
theorem interruptThenIret : Obligations.InterruptThenIret := by
  unfold Obligations.InterruptThenIret
  intro n x s hf hram
  refine ⟨_, _, rfl, exec_iret _, ?_⟩
  have hsp : (s.serviceInterrupt n).r16 .sp = s.r16 .sp - 6 := (s.serviceInterrupt_r16 n .sp).trans (if_pos rfl)
  have hss : (s.serviceInterrupt n).sreg .ss = s.sreg .ss := s.serviceInterrupt_sreg_ne n (by decide)
  have hreg : ∀ q, q ≠ .sp → (s.serviceInterrupt n).r16 q = s.r16 q := fun q hq =>
    (s.serviceInterrupt_r16 n q).trans (if_neg hq)
  have hseg : ∀ g, g ≠ .cs → (s.serviceInterrupt n).sreg g = s.sreg g := fun g hg => s.serviceInterrupt_sreg_ne n hg
  have ram : ∀ k : Word, k = 2 ∨ k = 4 ∨ k = 6 →
      (s.serviceInterrupt n).RamWord (phys (s.sreg .ss) (s.r16 .sp - k)) := fun k hk => by
    obtain ⟨m0, m1⟩ := mem_pushBytes_three s hk
    exact ⟨(s.serviceInterrupt_kindAt n _).trans (hram _ m0), (s.serviceInterrupt_kindAt n _).trans (hram _ m1)⟩
  obtain ⟨h2, h4, h6⟩ := serviceInterrupt_holds s n
  generalize s.serviceInterrupt n = t at hsp hss hreg hseg ram h2 h4 h6
  have e4 : s.r16 .sp - 6 + 2 = s.r16 .sp - 4 := by bv_omega
  have e2 : s.r16 .sp - 6 + 4 = s.r16 .sp - 2 := by bv_omega
  have p6 : (t.setIp x).popValue = s.ip := by
    rw [State.popValue_setIp, State.popValue_eq, hss, hsp]
    exact h6.readWord (ram 6 (by simp))
  have p4 : (t.setIp x).afterPop.popValue = s.sreg .cs := by
    rw [State.afterPop_setIp, State.popValue_setIp, State.popValue_eq, State.afterPop_sreg, afterPop_sp, hss, hsp, e4]
    exact h4.afterPop.readWord (ram 4 (by simp))
  have p2 : (t.setIp x).afterPop.afterPop.popValue = s.packed := by
    rw [State.afterPop_setIp, State.afterPop_setIp, State.popValue_setIp, State.popValue_eq, State.afterPop_sreg,
      State.afterPop_sreg, afterPop_afterPop_sp, hss, hsp, e2]
    exact h2.afterPop.afterPop.readWord (ram 2 (by simp))
  refine ⟨(State.returnFromInterrupt_ip _).trans p6, SegRegs.ext_get fun g => ?seg, Regs.ext_get fun q => ?reg,
    (State.returnFromInterrupt_flags _).trans ?flags, ?calls⟩
  case seg =>
    refine (State.returnFromInterrupt_sreg _ g).trans ?_
    split
    · next h => rw [p4, h]; rfl
    · next h => exact hseg g h
  case reg =>
    refine (State.returnFromInterrupt_r16 _ q).trans ?_
    split
    · next h =>
      rw [State.setIp_r16, hsp, sub_add_cancel, h]
      rfl
    · next h => exact hreg q h
  case flags =>
    rw [p2]
    exact flagsOfPacked_pack s.flags hf
  case calls =>
    have h := calls_returnFromInterrupt (t.setIp x)
    rw [p2, p4, p6, State.setIp_sreg, State.setIp_r16, hss, hsp, e4, e2] at h
    exact h

end Sys2Proof.Machine
end

section
/-! String instructions, once and repeated (44_string.md). -/

namespace Sys2Proof.Machine

variable {s t u : State}

/-! ## Without REP -/

/-- An advance in the direction DF had before the flags were set (44_string.md R390). -/
theorem advance_r16 (t : State) (r : Reg16) (n : Word) {d : Bool} (h : t.flags.df = d) :
    (t.advance r n).r16 r = if d then t.r16 r - n else t.r16 r + n := by
  rw [State.advance, State.r16_setR16_self, h]

theorem advance_advance_r16 (t : State) (n : Word) {d : Bool} {v w : Word} (h : t.flags.df = d) (hs : t.r16 .si = v)
    (hd : t.r16 .di = w) : ((t.advance .si n).advance .di n).r16 .si = (if d then v - n else v + n) ∧
    ((t.advance .si n).advance .di n).r16 .di = if d then w - n else w + n :=
  hs ▸ hd ▸ ⟨advance_r16 t .si n h, advance_r16 (t.advance .si n) .di n h⟩

theorem subFlags_df {w : Nat} (mode : AfMode) (a b : BitVec w) (c : Bool) (f : Flags) :
    (subFlags mode a b c f).df = f.df := subFlags_get mode a b c f (n := .df) (by decide)

theorem cmps8_advances (s : State) :
    s.cmps8.r16 .si = (if s.flags.df then s.r16 .si - 1 else s.r16 .si + 1) ∧
    s.cmps8.r16 .di = if s.flags.df then s.r16 .di - 1 else s.r16 .di + 1 :=
  advance_advance_r16 _ 1 (subFlags_df _ _ _ _ _) rfl rfl

theorem cmps16_advances (s : State) :
    s.cmps16.r16 .si = (if s.flags.df then s.r16 .si - 2 else s.r16 .si + 2) ∧
    s.cmps16.r16 .di = if s.flags.df then s.r16 .di - 2 else s.r16 .di + 2 :=
  advance_advance_r16 _ 2 (subFlags_df _ _ _ _ _) rfl rfl

/-- Settles O37: without REP the instruction is its body. -/
theorem stringOnce : Obligations.StringOnce := by
  unfold Obligations.StringOnce
  intro s h
  have once : ∀ c body, (Host.Outcome.next (s.stringExec c body) : Result) = .next (body s) := fun c body =>
    congrArg Host.Outcome.next (stringExec_once h c body)
  obtain ⟨c8s, c8d⟩ := cmps8_advances s
  obtain ⟨c16s, c16d⟩ := cmps16_advances s
  exact ⟨⟨_, once false State.movs8, (holdsByte_writeByte (s.afterReadByte s.stringSource) _ _).of_bus rfl,
      rfl, rfl, rfl, rfl⟩,
    ⟨_, once false State.movs16, (holdsWord_writeWord (s.afterReadWord s.stringSource) _ _).of_bus rfl,
      rfl, rfl, rfl, rfl⟩,
    ⟨_, once true State.cmps8, rfl, c8s, c8d, rfl⟩, ⟨_, once true State.cmps16, rfl, c16s, c16d, rfl⟩,
    ⟨_, once false State.stos8, (holdsByte_writeByte s _ _).of_bus rfl, rfl, rfl, rfl⟩,
    ⟨_, once false State.stos16, (holdsWord_writeWord s _ _).of_bus rfl, rfl, rfl, rfl⟩,
    ⟨_, once false State.lods8, State.r8_setR8_self _ _ _, rfl, rfl, rfl⟩,
    ⟨_, once false State.lods16, rfl, rfl, rfl, rfl⟩,
    ⟨_, once true State.scas8, rfl, advance_r16 _ .di 1 (subFlags_df _ _ _ _ _), rfl⟩,
    ⟨_, once true State.scas16, rfl, advance_r16 _ .di 2 (subFlags_df _ _ _ _ _), rfl⟩⟩

/-! ## The repeat loop, one body at a time -/

/-- A body of the repeat loop: it neither looks at REP nor writes it, and keeps CX (44_string.md R391). -/
structure LoopBody (body : State → State) : Prop where
  rep_comm : ∀ t r, body { t with rep := r } = { body t with rep := r }
  cx : ∀ t, (body t).r16 .cx = t.r16 .cx

theorem LoopBody.rep {body : State → State} (h : LoopBody body) (t : State) : (body t).rep = t.rep :=
  (congrArg State.rep (h.rep_comm t t.rep) :)

/-- With CX = 0 REP is consumed and nothing else happens (44_string.md R391). -/
theorem stringExec_zero (hr : s.rep ≠ .none) (hc : s.r16 .cx = 0) (c : Bool) (body : State → State) :
    s.stringExec c body = { s with rep := .none } := by
  rw [stringExec_repeat hr, hc]
  rfl

/-- Whether the loop ends after a body, REP being in force (44_string.md R391). -/
theorem repeatEnds_iff (hr : t.rep ≠ .none) (c : Bool) :
    t.repeatEnds c = true ↔ c = true ∧ t.flags.zf = decide (t.rep = .repnz) := by
  cases h : t.rep with
  | none => exact absurd h hr
  | repz => cases c <;> cases hz : t.flags.zf <;> simp [State.repeatEnds, h, hz]
  | repnz => cases c <;> cases hz : t.flags.zf <;> simp [State.repeatEnds, h, hz]

/-- One body of the repeat loop, and then the rest (44_string.md R391). -/
theorem LoopBody.stringExec_unroll {body : State → State} (h : LoopBody body) (hr : s.rep ≠ .none)
    (hc : s.r16 .cx ≠ 0) (c : Bool) : s.stringExec c body =
      if c = true ∧ (body { s.counted with rep := .none }).flags.zf = decide (s.rep = .repnz) then
        body { s.counted with rep := .none }
      else State.stringExec { body { s.counted with rep := .none } with rep := s.rep } c body := by
  have hcr : (body s.counted).rep = s.rep := h.rep _
  obtain ⟨n, hn⟩ : ∃ n, (s.r16 .cx).toNat = n + 1 :=
    Nat.exists_eq_succ_of_ne_zero fun e => hc (BitVec.eq_of_toNat_eq e)
  have hcx : ((body s.counted).r16 .cx).toNat = n := by
    rw [h.cx, State.counted, State.r16_setR16_self]
    bv_omega
  have back : { body s.counted with rep := s.rep } = body s.counted := by rw [← hcr]
  rw [h.rep_comm, stringExec_repeat hr, hn, stringLoop_succ]
  rw [if_congr (repeatEnds_iff (hcr.trans_ne hr) c) rfl rfl, hcr]
  show _ = if c = true ∧ (body s.counted).flags.zf = decide (s.rep = .repnz) then _
    else State.stringExec { body s.counted with rep := s.rep } c body
  rw [back, stringExec_repeat (hcr.trans_ne hr), hcx]
  split <;> rfl

/-- The byte form's body. -/
def StringOp.body8 : StringOp → State → State
  | .movs => State.movs8
  | .cmps => State.cmps8
  | .stos => State.stos8
  | .lods => State.lods8
  | .scas => State.scas8

/-- The word form's body. -/
def StringOp.body16 : StringOp → State → State
  | .movs => State.movs16
  | .cmps => State.cmps16
  | .stos => State.stos16
  | .lods => State.lods16
  | .scas => State.scas16

theorem StringOp.loopBody8 (op : StringOp) : LoopBody op.body8 := by
  cases op <;> exact ⟨fun _ _ => rfl, fun _ => rfl⟩

theorem StringOp.loopBody16 (op : StringOp) : LoopBody op.body16 := by
  cases op <;> exact ⟨fun _ _ => rfl, fun _ => rfl⟩

theorem exec_instr8 (op : StringOp) (s : State) :
    exec op.instr8 s = .next (s.stringExec op.compares op.body8) := by
  cases op <;> rfl

theorem exec_instr16 (op : StringOp) (s : State) :
    exec op.instr16 s = .next (s.stringExec op.compares op.body16) := by
  cases op <;> rfl

/-- What O38 says of an instruction, from the body it repeats. -/
theorem LoopBody.unrolls {body : State → State} (h : LoopBody body) {c : Bool} {i : Instr}
    (hi : ∀ s, exec i s = .next (s.stringExec c body)) (hr : s.rep ≠ .none) :
    (s.r16 .cx = 0 → exec i s = .next { s with rep := .none }) ∧
    (s.r16 .cx ≠ 0 → ∃ t, exec i { s.setR16 .cx (s.r16 .cx - 1) with rep := .none } = .next t ∧
      exec i s = if c = true ∧ t.flags.zf = decide (s.rep = .repnz) then .next t
        else exec i { t with rep := s.rep }) := by
  refine ⟨fun hc => ?_, fun hc => ⟨body { s.counted with rep := .none }, ?_, ?_⟩⟩
  · rw [hi, stringExec_zero hr hc]
  · rw [hi, stringExec_once rfl]
    rfl
  · rw [hi, hi, h.stringExec_unroll hr hc c]
    split <;> rfl

/-- Settles O38: by the loop's own unrolling. -/
theorem repeatUnrolls : Obligations.RepeatUnrolls := by
  unfold Obligations.RepeatUnrolls
  rintro op i s (rfl | rfl) hr
  · exact op.loopBody8.unrolls (exec_instr8 op) hr
  · exact op.loopBody16.unrolls (exec_instr16 op) hr

/-! ## Repeated stores -/

/-- What holds of the state the `k`-th body of a repeated STOS finds: beside `State.AtBody`, CX is counted down `k`
times, `k` calls were made and the destinations so far hold what was stored. -/
def State.Stored (s : State) (n : Word) (bytes : PAddr → List PAddr) (call : PAddr → BusCall)
    (held : State → PAddr → Prop) (k : Nat) (t : State) : Prop :=
  s.AtBody n bytes [.di] k t ∧ t.r16 .cx = s.r16 .cx - BitVec.ofNat 16 k ∧
    s.Calls t ((List.range k).map fun j => call (s.destAt n j)).reverse ∧ ∀ j < k, held t (s.destAt n j)

/-- A repeated STOS, from what one body does: every destination holds what is stored, one call each. -/
theorem StoreBody.stored {n : Word} {bytes : PAddr → List PAddr} {body : State → State}
    (h : StoreBody n bytes [.di] body) (hr : s.rep ≠ .none) {call : PAddr → BusCall} {held : State → PAddr → Prop}
    (hbus : ∀ t u pa, u.bus = t.bus → held t pa → held u pa)
    (hcall : ∀ t, t.r16 .ax = s.r16 .ax → (body t).bus.calls = call t.stringDest :: t.bus.calls)
    (hheld : ∀ k t, k < s.bodies → t.r16 .ax = s.r16 .ax → t.stringDest = s.destAt n k →
      (∀ j < k, held t (s.destAt n j)) → ∀ j < k + 1, held (body t) (s.destAt n j)) :
    (∀ k < (s.r16 .cx).toNat, held (s.stringExec false body) (s.destAt n k)) ∧
    s.Calls (s.stringExec false body) ((List.range (s.r16 .cx).toNat).map fun k => call (s.destAt n k)).reverse ∧
    (s.stringExec false body).r16 .cx = 0 ∧ (s.stringExec false body).r16 .di = s.diAt n (s.r16 .cx).toNat ∧
    (s.stringExec false body).rep = .none ∧ (s.stringExec false body).flags = s.flags := by
  have hb : s.bodies = (s.r16 .cx).toNat := by simp [State.bodies, hr]
  have step : ∀ k t, k < s.bodies → s.Stored n bytes call held k t →
      s.Stored n bytes call held (k + 1) (body t.counted) := by
    rintro k t hk ⟨ha, hcx, hcs, hh⟩
    obtain ⟨ht, hd, hf, hg⟩ := id ha
    have hax : t.counted.r16 .ax = s.r16 .ax := ht.r16 .ax (by simp [State.repeatCounter, hr]) (by simp)
    have hdest : t.counted.stringDest = s.destAt n k := by
      rw [State.stringDest, show t.counted.r16 .di = s.diAt n k from hd, State.sreg,
        show t.counted.segs = s.segs from hg]
      rfl
    refine ⟨h.atBody_succ hr hk ha, ?_, ?_, ?_⟩
    · rw [(h.touches t.counted).r16 .cx (by simp) (by simp), State.counted, State.r16_setR16_self, hcx,
        BitVec.ofNat_add]
      exact sub_sub _ _ _
    · rw [State.Calls, hcall _ hax, hdest, List.range_succ]
      simp only [List.map_append, List.map_cons, List.map_nil, List.reverse_append, List.reverse_singleton,
        List.cons_append, List.nil_append]
      exact congrArg _ hcs
    · exact hheld k t.counted hk hax hdest fun j hj => hbus t _ _ rfl (hh j hj)
  have start : s.Stored n bytes call held 0 s :=
    ⟨⟨Touches.refl s, (s.diAt_zero n).symm, rfl, rfl⟩, (sub_zero _).symm, rfl,
      fun _ hj => absurd hj (Nat.not_lt_zero _)⟩
  obtain ⟨⟨-, hd, hf, -⟩, hcx, hcs, hh⟩ := stringLoop_plain_induct (fun k t hk => step k t hk) s.bodies 0 s
    (Nat.zero_add _) start
  rw [hb] at hd hf hcx hcs hh
  rw [stringExec_repeat hr]
  refine ⟨fun k hk => hbus _ _ _ (by rfl) (hh k hk), hcs, hcx.trans ?_, hd, rfl, hf⟩
  rw [BitVec.ofNat_toNat, BitVec.setWidth_eq, sub_self]

/-- A byte stored again where it is held, or elsewhere, stays held. -/
theorem State.HoldsByte.writeByte_same {pa : PAddr} {v : Byte} (h : t.HoldsByte pa v) (a : PAddr) :
    (t.writeByte a v).HoldsByte pa v := by
  by_cases e : pa = a
  · exact e ▸ holdsByte_writeByte t pa v
  · exact h.mono (State.writeByte_kindAt _ _ _ _) (State.memByte_writeByte_ne _ _ e)

/-- A word stored elsewhere leaves a held word held. -/
theorem State.HoldsWord.writeWord_apart {pa a : PAddr} {v : Word} (h : t.HoldsWord pa v) (w : Word)
    (ha : pa ≠ a ∧ pa ≠ a + 1#20 ∧ pa + 1#20 ≠ a ∧ pa + 1#20 ≠ a + 1#20) : (t.writeWord a w).HoldsWord pa v := by
  obtain ⟨h0, h1, h2, h3⟩ := ha
  exact ⟨h.1.mono (State.writeWord_kindAt _ _ _ _) (State.memByte_writeWord_ne _ _ h0 h1),
    h.2.mono (State.writeWord_kindAt _ _ _ _) (State.memByte_writeWord_ne _ _ h2 h3)⟩

/-- The words of a repeated STOSW share no byte when there are no more than 0x8000. -/
theorem destAt_two_apart (s : State) {j k : Nat} (hj : j < k) (hk : k < 0x8000) :
    s.destAt 2 j ≠ s.destAt 2 k ∧ s.destAt 2 j ≠ s.destAt 2 k + 1#20 ∧ s.destAt 2 j + 1#20 ≠ s.destAt 2 k ∧
      s.destAt 2 j + 1#20 ≠ s.destAt 2 k + 1#20 := by
  have two : ∀ i, i < 0x8000 → ((2 : Word) * BitVec.ofNat 16 i).toNat = 2 * i := fun i hi => by
    rw [BitVec.toNat_mul, BitVec.toNat_ofNat]
    simp
    omega
  have ej := two j (hj.trans hk)
  have ek := two k hk
  apply words_apart <;> unfold State.diAt <;> split <;> intro e <;> have e' := congrArg BitVec.toNat e <;>
    simp only [BitVec.toNat_add, BitVec.toNat_sub, ej, ek] at e' <;> simp at e' <;> omega

theorem r8_al_congr (h : t.r16 .ax = s.r16 .ax) : t.r8 .al = s.r8 .al := congrArg lowByte h

/-- One more byte stored at its destination. -/
theorem stos8_held {j k : Nat} (ha : t.r16 .ax = s.r16 .ax) (hd : t.stringDest = s.destAt 1 k)
    (hh : ∀ j < k, t.HoldsByte (s.destAt 1 j) (s.r8 .al)) (hj : j < k + 1) :
    t.stos8.HoldsByte (s.destAt 1 j) (s.r8 .al) := by
  have e : t.stos8.bus = (t.writeByte (s.destAt 1 k) (s.r8 .al)).bus := by
    rw [← hd, ← r8_al_congr ha]
    rfl
  rcases Nat.lt_succ_iff_lt_or_eq.mp hj with hj | rfl
  · exact ((hh j hj).writeByte_same _).of_bus e
  · exact (holdsByte_writeByte t _ _).of_bus e

/-- One more word stored at its destination, which shares no byte with those before. -/
theorem stos16_held {j k : Nat} (hk : k < 0x8000) (ha : t.r16 .ax = s.r16 .ax)
    (hd : t.stringDest = s.destAt 2 k) (hh : ∀ j < k, t.HoldsWord (s.destAt 2 j) (s.r16 .ax)) (hj : j < k + 1) :
    t.stos16.HoldsWord (s.destAt 2 j) (s.r16 .ax) := by
  have e : t.stos16.bus = (t.writeWord (s.destAt 2 k) (s.r16 .ax)).bus := by
    rw [← hd, ← ha]
    rfl
  rcases Nat.lt_succ_iff_lt_or_eq.mp hj with hj | rfl
  · exact ((hh j hj).writeWord_apart _ (destAt_two_apart s hj hk)).of_bus e
  · exact (holdsWord_writeWord t _ _).of_bus e

/-- Settles O39: by the loop's invariant; the bytes outside by its footprint. -/
theorem repeatedStore : Obligations.RepeatedStore := by
  unfold Obligations.RepeatedStore
  intro s hr
  have hb : s.bodies = (s.r16 .cx).toNat := by simp [State.bodies, hr]
  constructor
  · obtain ⟨hh, hrest⟩ := stos8_storeBody.stored hr (call := fun pa => .writeByte pa (s.r8 .al))
      (held := fun t pa => t.HoldsByte pa (s.r8 .al)) (fun t u pa hu h => h.of_bus hu)
      (fun t ha => by rw [← r8_al_congr ha]; rfl)
      (fun k t hk ha hd hh j hj => stos8_held ha hd hh hj)
    refine ⟨_, rfl, hh, fun pa hpa => (stos8_storeBody.stringExec8_touches s).byte pa ?_, hrest⟩
    rw [hb, List.mem_map]
    rintro ⟨k, hk, rfl⟩
    exact hpa k (List.mem_range.mp hk) rfl
  · obtain ⟨hh, hrest⟩ := stos16_storeBody.stored hr (call := fun pa => .writeWord pa (s.r16 .ax))
      (held := fun t pa => (s.r16 .di).toNat % 2 = 0 → (s.r16 .cx).toNat ≤ 0x8000 → t.HoldsWord pa (s.r16 .ax))
      (fun t u pa hu h he hc => (h he hc).of_bus hu) (fun t ha => by rw [← ha]; rfl)
      (fun k t hk ha hd hh j hj he hc => stos16_held (by omega) ha hd (fun j hj => hh j hj he hc) hj)
    refine ⟨_, rfl, fun he hc k hk => hh k hk he hc,
      fun pa hpa => (stos16_storeBody.stringExec_touches s).byte pa ?_, hrest⟩
    rw [State.bodyBytes, hb, List.mem_flatMap]
    rintro ⟨k, hk, hm⟩
    obtain ⟨h0, h1⟩ := hpa k (List.mem_range.mp hk)
    rcases List.mem_pair.mp hm with rfl | rfl
    · exact h0 rfl
    · exact h1 rfl

end Sys2Proof.Machine
end

section
/-! Shifts and rotates by their forms (45_shift_rotate.md R420 to R422). -/

namespace Sys2Proof.Machine

variable {s t u : State} {w : Nat}

/-! ## Flags -/

/-- The flags before SF, ZF, PF and AF are set: CF is the last bit out, OF the count-1 rule's for a count of 1, the
rest as before. -/
theorem shiftFlags_cases (t : State) (op : ShiftOp) (n : Nat) (v : BitVec w) (x : BitVec w × Bool) :
    ∃ u, (∀ k, k ≠ .ovf → u.flags.get k = ({ t.flags with cf := x.2 } : Flags).get k) ∧
      (n = 1 → u.flags.ovf = op.of1 v x.1 x.2) ∧ u.regs = t.regs ∧
      t.shiftFlags op n v x = if op.isShift then (u.setFlags (u.flags.setSZP x.1)).undefFlag .af else u := by
  obtain ⟨u, hu, e⟩ := shiftFlags_eq t op n v x
  refine ⟨u, fun k hk => ?_, fun h1 => ?_, ?_, e⟩ <;> rcases hu with ⟨hn, rfl⟩ | ⟨hn, rfl⟩
  · cases k
    case ovf => exact absurd rfl hk
    all_goals rfl
  · exact State.get_undefFlag_ne _ hk
  · rfl
  · exact absurd h1 hn
  · rfl
  · exact State.undefFlag_regs _ _

theorem shiftFlags_regs (t : State) (op : ShiftOp) (n : Nat) (v : BitVec w) (x : BitVec w × Bool) :
    (t.shiftFlags op n v x).regs = t.regs := by
  obtain ⟨u, -, -, hr, e⟩ := shiftFlags_cases t op n v x
  rw [e]
  split
  · exact (State.undefFlag_regs _ _).trans hr
  · exact hr

/-- What the flags of `n` steps leave, the operand already written. -/
theorem shiftFlags_leaves {op : ShiftOp} {n : Nat} {v : BitVec w} {x : BitVec w × Bool} (hf : t.flags = s.flags)
    (hx : x = op.iter n (v, s.flags.cf)) : s.ShiftLeaves op n v x.1 (t.shiftFlags op n v x) := by
  obtain ⟨u, hu, ho, -, e⟩ := shiftFlags_cases t op n v x
  rw [hf] at hu
  have hcf : u.flags.cf = x.2 := hu .cf (by decide)
  rw [e]
  cases hs : op.isShift with
  | true =>
    rw [if_pos rfl]
    have keep : ∀ k, k ≠ .af → ((u.setFlags (u.flags.setSZP x.1)).undefFlag .af).flags.get k =
        (u.flags.setSZP x.1).get k := fun k hk => State.get_undefFlag_ne _ hk
    have kcf : ((u.setFlags (u.flags.setSZP x.1)).undefFlag .af).flags.cf = x.2 := (keep .cf (by decide)).trans hcf
    refine ⟨?_, fun h1 => ?_, fun _ => ⟨(keep .zf (by decide)).trans (beq_eq_decide _ _), keep .sf (by decide),
      keep .pf (by decide)⟩, fun h => absurd (hs.symm.trans h) (by decide)⟩
    · rw [kcf, ← hx]
    · rw [kcf]
      exact (keep .ovf (by decide)).trans (ho h1)
  | false =>
    rw [if_neg (by decide)]
    refine ⟨?_, fun h1 => ?_, fun h => absurd (hs.symm.trans h) (by decide), fun _ => ⟨hu .zf (by decide),
      hu .sf (by decide), hu .pf (by decide), hu .af (by decide)⟩⟩
    · rw [hcf, ← hx]
    · rw [hcf]
      exact ho h1

/-! ## Operands -/

/-- `n` steps of a byte operand, `n` not 0: its flags, its result and the calls of the bus. -/
theorem shift8_leaves (s : State) (op : ShiftOp) (m : Rm Reg8) {n : Nat} (hn : n ≠ 0) :
    ∃ r, s.ShiftLeaves op n (s.rmByte m) r ((s.decoded m).shift8 op (s.operand m) n) ∧
      s.RmHolds8 ((s.decoded m).shift8 op (s.operand m) n) m r ∧
      s.Calls ((s.decoded m).shift8 op (s.operand m) n) (s.rmWrites8 m r ++ s.rmReads8 m) := by
  have e : (s.decoded m).shift8 op (s.operand m) n =
      ((s.loaded8 m).writeOp8 (s.operand m) (op.iter n (s.rmByte m, s.flags.cf)).1).shiftFlags op n (s.rmByte m)
        (op.iter n (s.rmByte m, s.flags.cf)) := by
    rw [State.shift8, if_neg hn, State.decoded_flags]
    rfl
  rw [e]
  exact ⟨_, shiftFlags_leaves (by simp) rfl,
    (rmHolds8_writeOp8 (t := s.loaded8 m) s m _ (by simp)).of_eq (shiftFlags_regs _ _ _ _ _)
      (State.shiftFlags_bus _ _ _ _ _),
    ((calls_loaded8 s m).trans (calls_writeOp8 (t := s.loaded8 m) s m _ (by simp))).of_bus
      (State.shiftFlags_bus _ _ _ _ _)⟩

theorem shift16_leaves (s : State) (op : ShiftOp) (m : Rm Reg16) {n : Nat} (hn : n ≠ 0) :
    ∃ r, s.ShiftLeaves op n (s.rmWord m) r ((s.decoded m).shift16 op (s.operand m) n) ∧
      s.RmHolds16 ((s.decoded m).shift16 op (s.operand m) n) m r ∧
      s.Calls ((s.decoded m).shift16 op (s.operand m) n) (s.rmWrites16 m r ++ s.rmReads16 m) := by
  have e : (s.decoded m).shift16 op (s.operand m) n =
      ((s.loaded16 m).writeOp16 (s.operand m) (op.iter n (s.rmWord m, s.flags.cf)).1).shiftFlags op n (s.rmWord m)
        (op.iter n (s.rmWord m, s.flags.cf)) := by
    rw [State.shift16, if_neg hn, State.decoded_flags]
    rfl
  rw [e]
  exact ⟨_, shiftFlags_leaves (by simp) rfl,
    (rmHolds16_writeOp16 (t := s.loaded16 m) s m _ (by simp)).of_eq (shiftFlags_regs _ _ _ _ _)
      (State.shiftFlags_bus _ _ _ _ _),
    ((calls_loaded16 s m).trans (calls_writeOp16 (t := s.loaded16 m) s m _ (by simp))).of_bus
      (State.shiftFlags_bus _ _ _ _ _)⟩

theorem exec_shiftEb1 (op : ShiftOp) (m : Rm Reg8) (s : State) :
    exec (op.instrEb1 m) s = .next ((s.decoded m).shift8 op (s.operand m) 1) := by cases op <;> rfl

theorem exec_shiftEv1 (op : ShiftOp) (m : Rm Reg16) (s : State) :
    exec (op.instrEv1 m) s = .next ((s.decoded m).shift16 op (s.operand m) 1) := by cases op <;> rfl

theorem exec_shiftEbCl (op : ShiftOp) (m : Rm Reg8) (s : State) :
    exec (op.instrEbCl m) s = .next ((s.decoded m).shift8 op (s.operand m) (s.r8 .cl).toNat) := by cases op <;> rfl

theorem exec_shiftEvCl (op : ShiftOp) (m : Rm Reg16) (s : State) :
    exec (op.instrEvCl m) s = .next ((s.decoded m).shift16 op (s.operand m) (s.r8 .cl).toNat) := by cases op <;> rfl

/-- Settles O40: each form by its count. -/
theorem shiftForms : Obligations.ShiftForms := by
  unfold Obligations.ShiftForms
  have count : ∀ {v : Byte}, v ≠ 0 → v.toNat ≠ 0 := fun h e => h (BitVec.eq_of_toNat_eq e)
  refine ⟨fun op m s => ⟨?b1, fun h => ?b0, fun h => ?bn⟩, fun op m s => ⟨?w1, fun h => ?w0, fun h => ?wn⟩,
    fun w v0 v cf op _ => ?of1⟩
  case b1 =>
    obtain ⟨r, h⟩ := shift8_leaves s op m (n := 1) (by decide)
    exact ⟨_, r, exec_shiftEb1 op m s, h⟩
  case b0 =>
    rw [exec_shiftEbCl, h]
    rfl
  case bn =>
    obtain ⟨r, hr⟩ := shift8_leaves s op m (count h)
    exact ⟨_, r, exec_shiftEbCl op m s, hr⟩
  case w1 =>
    obtain ⟨r, h⟩ := shift16_leaves s op m (n := 1) (by decide)
    exact ⟨_, r, exec_shiftEv1 op m s, h⟩
  case w0 =>
    rw [exec_shiftEvCl, h]
    rfl
  case wn =>
    obtain ⟨r, hr⟩ := shift16_leaves s op m (count h)
    exact ⟨_, r, exec_shiftEvCl op m s, hr⟩
  case of1 =>
    have ne : ∀ a b : Bool, (a ^^ b) = decide (a ≠ b) := by decide
    cases op with
    | rol | rcl | ror | rcr => exact ne _ _
    | shl => exact ne _ _
    | shr | sar => rfl

end Sys2Proof.Machine
end

section
/-! What the single steps of shifts and rotates add up to (45_shift_rotate.md R420, R423 to R429). -/

namespace Sys2Proof.Machine

variable {w : Nat}

/-! ## Steps -/

/-- The last of `n + 1` steps. -/
theorem ShiftOp.iter_succ (op : ShiftOp) : ∀ (n : Nat) (x : BitVec w × Bool),
    op.iter (n + 1) x = op.step (op.iter n x).1 (op.iter n x).2
  | 0, _ => rfl
  | n + 1, x => ShiftOp.iter_succ op n (op.step x.1 x.2)

theorem getLsbD_bitLow (hw : 0 < w) (b : Bool) (i : Nat) : (bitLow w b).getLsbD i = (decide (i = 0) && b) := by
  rw [bitLow, BitVec.getLsbD_ofNat]
  cases b with
  | false => simp
  | true =>
    rw [Bool.toNat_true, Bool.and_true, Bool.eq_iff_iff]
    simp [Nat.testBit_one_eq_true_iff_self_eq_zero]
    omega

theorem getLsbD_bitHigh (hw : 0 < w) (b : Bool) (i : Nat) : (bitHigh w b).getLsbD i = (decide (i = w - 1) && b) := by
  rw [bitHigh, BitVec.getLsbD_shiftLeft, getLsbD_bitLow hw, ← Bool.and_assoc]
  congr 1
  rw [Bool.eq_iff_iff]
  simp only [Bool.and_eq_true, decide_eq_true_eq, Bool.not_eq_true', decide_eq_false_iff_not]
  omega

/-! ## Rotations by one more -/

/-- The remainder of a rotation's count, counted on. -/
theorem succ_mod_cases (n : Nat) (hw : 0 < w) :
    n % w + 1 = w ∧ (n + 1) % w = 0 ∨ n % w + 1 < w ∧ (n + 1) % w = n % w + 1 := by
  have h := Nat.mod_lt n hw
  rcases Nat.lt_or_eq_of_le (Nat.succ_le_of_lt h) with h | h
  · exact .inr ⟨h, by rw [Nat.add_mod, Nat.mod_eq_of_lt (show 1 < w by omega)]; exact Nat.mod_eq_of_lt h⟩
  · refine .inl ⟨h, ?_⟩
    rw [← Nat.mod_add_mod, show n % w + 1 = w from h, Nat.mod_self]

theorem rotateLeft_one (hw : 1 < w) (x : BitVec w) : x.rotateLeft 1 = (x <<< 1) ||| bitLow w x.msb := by
  refine BitVec.eq_of_getLsbD_eq fun i hi => ?_
  rw [BitVec.getLsbD_rotateLeft, Nat.mod_eq_of_lt hw, BitVec.getLsbD_or, BitVec.getLsbD_shiftLeft,
    getLsbD_bitLow (by omega), BitVec.msb_eq_getLsbD_last]
  by_cases h : i = 0
  · simp [h]
  · have h1 : ¬ i < 1 := by omega
    simp [h, h1, hi]

theorem rotateRight_one (hw : 1 < w) (x : BitVec w) : x.rotateRight 1 = (x >>> 1) ||| bitHigh w (x.getLsbD 0) := by
  refine BitVec.eq_of_getLsbD_eq fun i hi => ?_
  rw [BitVec.getLsbD_rotateRight, Nat.mod_eq_of_lt hw, BitVec.getLsbD_or, BitVec.getLsbD_ushiftRight,
    getLsbD_bitHigh (by omega)]
  by_cases h : i = w - 1
  · have h1 : ¬ i < w - 1 := by omega
    have h2 : w ≤ 1 + i := by omega
    simp [h, BitVec.getLsbD_of_ge x (1 + (w - 1)) (by omega)]
    omega
  · have h1 : i < w - 1 := by omega
    simp [h, h1]

/-- A bit of a rotation to the left is one bit of the value. -/
theorem getLsbD_rotateLeft_of_lt (x : BitVec w) (n : Nat) {i : Nat} (hi : i < w) :
    (x.rotateLeft n).getLsbD i = x.getLsbD (if i < n % w then w - n % w + i else i - n % w) := by
  rw [BitVec.getLsbD_rotateLeft]
  by_cases h : i < n % w <;> simp [h, hi]

/-- A bit of a rotation to the right is one bit of the value. -/
theorem getLsbD_rotateRight_of_lt (x : BitVec w) (n : Nat) {i : Nat} (hi : i < w) :
    (x.rotateRight n).getLsbD i = x.getLsbD (if i < w - n % w then n % w + i else i - (w - n % w)) := by
  rw [BitVec.getLsbD_rotateRight]
  by_cases h : i < w - n % w <;> simp [h, hi]

theorem rotateLeft_succ (hw : 1 < w) (x : BitVec w) (n : Nat) :
    x.rotateLeft (n + 1) = (x.rotateLeft n).rotateLeft 1 := by
  refine BitVec.eq_of_getLsbD_eq fun i hi => ?_
  have hm := Nat.mod_lt n (show 0 < w by omega)
  rw [getLsbD_rotateLeft_of_lt _ _ hi, getLsbD_rotateLeft_of_lt _ _ hi, Nat.mod_eq_of_lt hw,
    getLsbD_rotateLeft_of_lt _ _ (by split <;> omega)]
  congr 1
  rcases succ_mod_cases n (show 0 < w by omega) with ⟨h1, h2⟩ | ⟨h1, h2⟩ <;> rw [h2] <;> split_ifs <;> omega

theorem rotateRight_succ (hw : 1 < w) (x : BitVec w) (n : Nat) :
    x.rotateRight (n + 1) = (x.rotateRight n).rotateRight 1 := by
  refine BitVec.eq_of_getLsbD_eq fun i hi => ?_
  have hm := Nat.mod_lt n (show 0 < w by omega)
  rw [getLsbD_rotateRight_of_lt _ _ hi, getLsbD_rotateRight_of_lt _ _ hi, Nat.mod_eq_of_lt hw,
    getLsbD_rotateRight_of_lt _ _ (by split <;> omega)]
  congr 1
  rcases succ_mod_cases n (show 0 < w by omega) with ⟨h1, h2⟩ | ⟨h1, h2⟩ <;> rw [h2] <;> split_ifs <;> omega

theorem rotateLeft_zero (x : BitVec w) : x.rotateLeft 0 = x := by
  refine BitVec.eq_of_getLsbD_eq fun i hi => ?_
  rw [getLsbD_rotateLeft_of_lt _ _ hi]
  simp

theorem rotateRight_zero (x : BitVec w) : x.rotateRight 0 = x := by
  refine BitVec.eq_of_getLsbD_eq fun i hi => ?_
  rw [getLsbD_rotateRight_of_lt _ _ hi]
  simp [hi]

/-! ## Every count -/

theorem iter_shl (v : BitVec w) (c : Bool) : ∀ n, (ShiftOp.shl.iter n (v, c)).1 = v <<< n
  | 0 => (BitVec.shiftLeft_zero v).symm
  | n + 1 => by
    rw [ShiftOp.iter_succ, BitVec.shiftLeft_add, ← iter_shl v c n]
    rfl

theorem iter_shr (v : BitVec w) (c : Bool) : ∀ n, (ShiftOp.shr.iter n (v, c)).1 = v >>> n
  | 0 => (BitVec.ushiftRight_zero v).symm
  | n + 1 => by
    rw [ShiftOp.iter_succ, BitVec.shiftRight_add, ← iter_shr v c n]
    rfl

theorem sshiftRight_one (hw : 1 < w) (x : BitVec w) : x.sshiftRight 1 = (x >>> 1) ||| bitHigh w x.msb := by
  refine BitVec.eq_of_getLsbD_eq fun i hi => ?_
  rw [BitVec.getLsbD_sshiftRight, BitVec.getLsbD_or, BitVec.getLsbD_ushiftRight, getLsbD_bitHigh (by omega)]
  by_cases h : i = w - 1
  · simp [h, BitVec.getLsbD_of_ge x (1 + (w - 1)) (by omega), show ¬ 1 + (w - 1) < w by omega]
    omega
  · simp [h, show 1 + i < w by omega, show ¬ w ≤ i by omega]

theorem iter_sar (hw : 1 < w) (v : BitVec w) (c : Bool) : ∀ n, (ShiftOp.sar.iter n (v, c)).1 = v.sshiftRight n
  | 0 => (BitVec.sshiftRight_zero).symm
  | n + 1 => by
    rw [ShiftOp.iter_succ, BitVec.sshiftRight_add, sshiftRight_one hw, ← iter_sar hw v c n]
    rfl

theorem iter_rol (hw : 1 < w) (v : BitVec w) (c : Bool) : ∀ n, (ShiftOp.rol.iter n (v, c)).1 = v.rotateLeft n
  | 0 => (rotateLeft_zero v).symm
  | n + 1 => by
    rw [ShiftOp.iter_succ, rotateLeft_succ hw, rotateLeft_one hw, ← iter_rol hw v c n]
    rfl

theorem iter_ror (hw : 1 < w) (v : BitVec w) (c : Bool) : ∀ n, (ShiftOp.ror.iter n (v, c)).1 = v.rotateRight n
  | 0 => (rotateRight_zero v).symm
  | n + 1 => by
    rw [ShiftOp.iter_succ, rotateRight_succ hw, rotateRight_one hw, ← iter_ror hw v c n]
    rfl

/-- One step of RCL rotates the carry and the value together. -/
theorem cons_step_rcl (hw : 1 < w) (v : BitVec w) (c : Bool) :
    BitVec.cons (ShiftOp.rcl.step v c).2 (ShiftOp.rcl.step v c).1 = (BitVec.cons c v).rotateLeft 1 := by
  refine BitVec.eq_of_getLsbD_eq fun i hi => ?_
  rw [getLsbD_rotateLeft_of_lt _ _ hi, Nat.mod_eq_of_lt (by omega : 1 < w + 1), BitVec.getLsbD_cons,
    BitVec.getLsbD_cons, ShiftOp.step, BitVec.getLsbD_or, BitVec.getLsbD_shiftLeft, getLsbD_bitLow (by omega),
    BitVec.msb_eq_getLsbD_last]
  by_cases h0 : i = 0
  · simp [h0, show (0 = w) = False by simp; omega]
  · by_cases h1 : i = w
    · simp [h1, show ¬ w < 1 by omega, show ¬ w - 1 = w by omega]
    · simp [h0, h1, show ¬ i < 1 by omega, show ¬ i - 1 = w by omega, show i < w by omega]

/-- One step of RCR rotates the carry and the value together. -/
theorem cons_step_rcr (hw : 1 < w) (v : BitVec w) (c : Bool) :
    BitVec.cons (ShiftOp.rcr.step v c).2 (ShiftOp.rcr.step v c).1 = (BitVec.cons c v).rotateRight 1 := by
  refine BitVec.eq_of_getLsbD_eq fun i hi => ?_
  rw [getLsbD_rotateRight_of_lt _ _ hi, Nat.mod_eq_of_lt (by omega : 1 < w + 1), BitVec.getLsbD_cons,
    BitVec.getLsbD_cons, ShiftOp.step, BitVec.getLsbD_or, BitVec.getLsbD_ushiftRight, getLsbD_bitHigh (by omega)]
  by_cases h0 : i = w
  · simp [h0, show ¬ 0 = w by omega]
  · by_cases h1 : i = w - 1
    · simp [h1, show w - 1 < w by omega, show ¬ w - 1 = w by omega, show 1 + (w - 1) = w by omega]
    · simp [h0, h1, show i < w by omega, show ¬ 1 + i = w by omega]

theorem cons_iter_rcl (hw : 1 < w) (v : BitVec w) (c : Bool) : ∀ n,
    BitVec.cons (ShiftOp.rcl.iter n (v, c)).2 (ShiftOp.rcl.iter n (v, c)).1 = (BitVec.cons c v).rotateLeft n
  | 0 => (rotateLeft_zero _).symm
  | n + 1 => by rw [ShiftOp.iter_succ, cons_step_rcl hw, cons_iter_rcl hw v c n,
      rotateLeft_succ (by omega : 1 < w + 1) _ n]

theorem cons_iter_rcr (hw : 1 < w) (v : BitVec w) (c : Bool) : ∀ n,
    BitVec.cons (ShiftOp.rcr.iter n (v, c)).2 (ShiftOp.rcr.iter n (v, c)).1 = (BitVec.cons c v).rotateRight n
  | 0 => (rotateRight_zero _).symm
  | n + 1 => by rw [ShiftOp.iter_succ, cons_step_rcr hw, cons_iter_rcr hw v c n,
      rotateRight_succ (by omega : 1 < w + 1) _ n]

/-- A carry and a value are the top bit and the rest of what they make up. -/
theorem eq_of_cons_eq {x y : BitVec w × Bool} (h : BitVec.cons x.2 x.1 = BitVec.cons y.2 y.1) : x = y := by
  refine Prod.ext (BitVec.eq_of_getLsbD_eq fun i hi => ?_) ?_
  · have k := congrArg (BitVec.getLsbD · i) h
    simpa [BitVec.getLsbD_cons, hi.ne] using k
  · simpa using congrArg BitVec.msb h

theorem getLsbD_zero_eq (hw : 0 < w) (v : BitVec w) : v.getLsbD 0 = decide (v.toInt % 2 = 1) := by
  obtain ⟨k, rfl⟩ := Nat.exists_eq_succ_of_ne_zero hw.ne'
  have hp : 2 ^ (k + 1) = 2 * 2 ^ k := pow_succ' 2 k
  have ht := BitVec.toInt_eq_toNat_cond v
  rw [BitVec.getLsbD, Nat.testBit_zero, decide_eq_decide]
  split at ht <;> omega

/-- A bit put in below a shifted value is added to it. -/
theorem shiftLeft_one_or_toNat (hw : 1 < w) (v : BitVec w) (c : Bool) :
    ((v <<< 1) ||| bitLow w c).toNat = (v.toNat * 2 + c.toNat) % 2 ^ w := by
  have h : (v <<< 1) &&& bitLow w c = 0#w := by
    refine BitVec.eq_of_getLsbD_eq fun i hi => ?_
    rw [BitVec.getLsbD_and, BitVec.getLsbD_shiftLeft, getLsbD_bitLow (by omega)]
    by_cases h : i = 0 <;> simp [h]
  rw [← BitVec.add_eq_or_of_and_eq_zero _ _ h, BitVec.toNat_add, BitVec.toNat_shiftLeft, bitLow, BitVec.toNat_ofNat,
    Nat.shiftLeft_eq, ← Nat.add_mod]

/-- A bit put in above a shifted value is added to it. -/
theorem ushiftRight_one_or_toNat (hw : 1 < w) (v : BitVec w) (c : Bool) :
    ((v >>> 1) ||| bitHigh w c).toNat = v.toNat / 2 + c.toNat * 2 ^ (w - 1) := by
  have h : (v >>> 1) &&& bitHigh w c = 0#w := by
    refine BitVec.eq_of_getLsbD_eq fun i hi => ?_
    rw [BitVec.getLsbD_and, BitVec.getLsbD_ushiftRight, getLsbD_bitHigh (by omega)]
    by_cases h : i = w - 1
    · simp [BitVec.getLsbD_of_ge v (1 + i) (by omega)]
    · simp [h]
  have hp : 2 ^ w = 2 * 2 ^ (w - 1) := (mul_pow_sub_one (by omega) 2).symm
  have hv := v.isLt
  have hc : c.toNat * 2 ^ (w - 1) ≤ 2 ^ (w - 1) := by cases c <;> simp
  have hb : (bitHigh w c).toNat = c.toNat * 2 ^ (w - 1) := by
    have hl : (bitLow w c).toNat = c.toNat := Nat.mod_eq_of_lt ((Bool.toNat_lt c).trans_le (by
      calc 2 = 2 ^ 1 := rfl
        _ ≤ 2 ^ w := Nat.pow_le_pow_right (by decide) (by omega)))
    rw [bitHigh, BitVec.toNat_shiftLeft, hl, Nat.shiftLeft_eq, Nat.mod_eq_of_lt (by omega)]
  rw [← BitVec.add_eq_or_of_and_eq_zero _ _ h, BitVec.toNat_add, hb, BitVec.toNat_ushiftRight,
    Nat.shiftRight_eq_div_pow, Nat.mod_eq_of_lt (by omega), pow_one]

/-- Settles O41: by induction on the count, one operation at a time. -/
theorem shiftArithmetic : Obligations.ShiftArithmetic := by
  unfold Obligations.ShiftArithmetic
  intro w v c n hw8 hn
  have hw : 1 < w := by omega
  obtain ⟨k, rfl⟩ := Nat.exists_eq_succ_of_ne_zero hn
  refine ⟨⟨?shl, ?shlC⟩, ⟨?shr, ?shrC⟩, ⟨?sar, ?sarC⟩, ⟨iter_rol hw v c _, ?rolC⟩, ⟨iter_ror hw v c _, ?rorC⟩,
    ⟨?rcl, rfl⟩, ⟨?rcr, rfl⟩, cons_iter_rcl hw v c _, cons_iter_rcr hw v c _, ?rclW, ?rcrW⟩
  case shl => rw [iter_shl, BitVec.toNat_shiftLeft, Nat.shiftLeft_eq]
  case shlC =>
    rw [ShiftOp.iter_succ]
    show (ShiftOp.shl.iter k (v, c)).1.msb = _
    rw [iter_shl, BitVec.msb_eq_getLsbD_last, BitVec.getLsbD_shiftLeft, Nat.sub_sub, Nat.add_comm 1 k]
    congr 1
    rw [Bool.eq_iff_iff]
    simp
    omega
  case shr => rw [iter_shr, BitVec.toNat_ushiftRight, Nat.shiftRight_eq_div_pow]
  case shrC =>
    rw [ShiftOp.iter_succ]
    show (ShiftOp.shr.iter k (v, c)).1.getLsbD 0 = _
    rw [iter_shr, BitVec.getLsbD_ushiftRight]
    rfl
  case sar => rw [iter_sar hw, BitVec.toInt_sshiftRight, Int.shiftRight_eq_div_pow]; rfl
  case sarC =>
    rw [ShiftOp.iter_succ]
    show (ShiftOp.sar.iter k (v, c)).1.getLsbD 0 = _
    rw [iter_sar hw, getLsbD_zero_eq (by omega), BitVec.toInt_sshiftRight, Int.shiftRight_eq_div_pow]
    rfl
  case rolC =>
    rw [ShiftOp.iter_succ]
    show (ShiftOp.rol.iter k (v, c)).1.msb = _
    rw [iter_rol hw, rotateLeft_succ hw, rotateLeft_one hw, BitVec.getLsbD_or, getLsbD_bitLow (by omega)]
    simp
  case rorC =>
    rw [ShiftOp.iter_succ]
    show (ShiftOp.ror.iter k (v, c)).1.getLsbD 0 = _
    rw [iter_ror hw, rotateRight_succ hw, rotateRight_one hw, BitVec.msb_eq_getLsbD_last, BitVec.getLsbD_or,
      getLsbD_bitHigh (by omega), BitVec.getLsbD_ushiftRight, BitVec.getLsbD_of_ge _ (1 + (w - 1)) (by omega)]
    simp
  case rcl => exact shiftLeft_one_or_toNat hw v c
  case rcr => exact ushiftRight_one_or_toNat hw v c
  case rclW =>
    refine eq_of_cons_eq ?_
    rw [cons_iter_rcl hw, ← BitVec.rotateLeft_mod_eq_rotateLeft, Nat.mod_self, rotateLeft_zero]
  case rcrW =>
    refine eq_of_cons_eq ?_
    rw [cons_iter_rcr hw, ← BitVec.rotateRight_mod_eq_rotateRight, Nat.mod_self, rotateRight_zero]

end Sys2Proof.Machine
end

section
/-! The fetch and the step (30_encoding.md R120; 60_exceptions.md R600 to R633). -/

namespace Sys2Proof.Machine

variable {s t u : State} {i j : Instr}

/-! ## No instruction is part of another -/

/-- What decodes from the front of more bytes is what decodes from all of them. -/
theorem decode_append {bs rest : List Byte} (h : decode bs = .ok (i, rest)) (more : List Byte) :
    decode (bs ++ more) = .ok (i, rest ++ more) := by
  obtain ⟨hw, rfl⟩ := encodeOfDecode bs i rest h
  rw [List.append_assoc]
  exact decodeOfEncode i (rest ++ more) hw

theorem decode_encode (hw : i.wf = true) : decode (encode i) = .ok (i, []) := by
  have h := decodeOfEncode i [] hw
  rwa [List.append_nil] at h

/-- The bytes before the last of an instruction do not decode. -/
theorem decode_take_encode (hw : i.wf = true) {k : Nat} (hk : k < (encode i).length) :
    ∃ e, decode ((encode i).take k) = .error e := by
  cases h : decode ((encode i).take k) with
  | error e => exact ⟨e, rfl⟩
  | ok r =>
    have whole := decode_append h ((encode i).drop k)
    rw [List.take_append_drop, decode_encode hw] at whole
    have hn : [] = r.2 ++ (encode i).drop k := congrArg Prod.snd (Except.ok.inj whole)
    have hd := (List.append_eq_nil_iff.mp hn.symm).2
    exact absurd (List.drop_eq_nil_iff.mp hd) (by omega)

theorem encode_length_le_six (hw : i.wf = true) : (encode i).length ≤ 6 := by
  by_contra h
  obtain ⟨e, he⟩ := decode_take_encode hw (k := 6) (by omega)
  obtain ⟨j, rest, hj, -⟩ := sixBytesAlwaysDecode ((encode i).take 6) (by rw [List.length_take]; omega)
  rw [he] at hj
  cases hj

/-! ## The immediate of a TEST is left to its meaning (R263) -/

/-- The bytes of `TEST Eb,Ib` before its immediate. -/
def testEbHead (m : Rm Reg8) : List Byte := 0xF6#8 :: encModrm 0#3 (m.map Reg8.bits)

/-- The bytes of `TEST Ev,Iv` before its immediate. -/
def testEvHead (m : Rm Reg16) : List Byte := 0xF7#8 :: encModrm 0#3 (m.map Reg16.bits)

theorem encode_testEbIb (m : Rm Reg8) (c : Byte) : encode (.testEbIb m c) = testEbHead m ++ [c] := rfl

theorem encode_testEvIv (m : Rm Reg16) (w : Word) : encode (.testEvIv m w) = testEvHead m ++ leBytes w := rfl

theorem testOperand_eq_inl {bs : List Byte} {m : Rm Reg8} (h : testOperand bs = some (.inl m)) :
    m.wf = true ∧ bs = testEbHead m := by
  unfold testOperand at h
  split at h
  · next h0 =>
    cases h
    obtain ⟨hw, he⟩ := encodeOfDecode _ _ _ h0
    rw [List.append_nil, encode_testEbIb] at he
    exact ⟨hw, (List.append_inj' he rfl).1.symm⟩
  · cases h
  · cases h

theorem testOperand_eq_inr {bs : List Byte} {m : Rm Reg16} (h : testOperand bs = some (.inr m)) :
    m.wf = true ∧ bs = testEvHead m := by
  unfold testOperand at h
  split at h
  · cases h
  · next h0 _ =>
    cases h
    obtain ⟨hw, he⟩ := encodeOfDecode _ _ _ h0
    rw [List.append_nil, encode_testEvIv] at he
    exact ⟨hw, (List.append_inj' he rfl).1.symm⟩
  · cases h

theorem testOperand_testEbHead {m : Rm Reg8} (hw : m.wf = true) : testOperand (testEbHead m) = some (.inl m) := by
  have h : decode (testEbHead m ++ [0]) = .ok (.testEbIb m 0, []) := decode_encode (i := .testEbIb m 0) hw
  simp only [testOperand, h]

theorem testOperand_testEvHead {m : Rm Reg16} (hw : m.wf = true) : testOperand (testEvHead m) = some (.inr m) := by
  have h : decode (testEvHead m ++ [0, 0]) = .ok (.testEvIv m 0, []) := decode_encode (i := .testEvIv m 0) hw
  obtain ⟨e, he⟩ := decode_take_encode (i := .testEvIv m 0) hw (k := (testEvHead m).length + 1)
    (by rw [encode_testEvIv, List.length_append]; simp [leBytes])
  have h0 : decode (testEvHead m ++ [0]) = .error e := by
    rw [encode_testEvIv, List.take_length_add_append] at he
    exact he
  simp only [testOperand, h, h0]

/-- An instruction that begins with a TEST's bytes before its immediate is that TEST, and what is left is the
immediate. -/
theorem fetchedBytes_of_testOperand (hw : i.wf = true) {k : Nat} (hk : k < (encode i).length)
    {o : Rm Reg8 ⊕ Rm Reg16} (h : testOperand ((encode i).take k) = some o) : fetchedBytes i = k := by
  obtain ⟨c, cs, hc⟩ := List.exists_cons_of_ne_nil (show (encode i).drop k ≠ [] from fun e => by
    rw [List.drop_eq_nil_iff] at e
    omega)
  have hsplit : (encode i).take k ++ c :: cs = encode i := by rw [← hc, List.take_append_drop]
  have hlen : ((encode i).take k).length = k := List.length_take_of_le hk.le
  rcases o with m | m
  · obtain ⟨hm, he⟩ := testOperand_eq_inl h
    have hd : decode (encode i) = .ok (.testEbIb m c, cs) := by
      rw [← hsplit, he, List.append_cons, ← encode_testEbIb]
      exact decodeOfEncode (.testEbIb m c) cs hm
    rw [decode_encode hw] at hd
    cases hd
    rw [← hlen, he]
    simp [fetchedBytes, encode_testEbIb]
  · obtain ⟨hm, he⟩ := testOperand_eq_inr h
    obtain ⟨d, ds, hds⟩ := List.exists_cons_of_ne_nil (show cs ++ [0] ≠ [] by simp)
    have hd : decode (encode i ++ [0]) = .ok (.testEvIv m (leWord c d), ds) := by
      rw [← hsplit, he, List.append_assoc, List.cons_append, hds, List.append_cons, List.append_cons,
        List.append_assoc _ [c], List.singleton_append, ← leBytes_leWord c d, ← encode_testEvIv]
      exact decodeOfEncode (.testEvIv m (leWord c d)) ds hm
    rw [decodeOfEncode i [0] hw] at hd
    cases hd
    rw [← hlen, he]
    simp [fetchedBytes, encode_testEvIv, leBytes]

/-! ## The fetch of one instruction -/

/-- The fetch reads an instruction's bytes but for the immediate of a TEST. -/
theorem fetchedBytes_cases (i : Instr) :
    (∃ m v, i = .testEbIb m v ∧ (encode i).take (fetchedBytes i) = testEbHead m ∧
      fetchedBytes i + 1 = (encode i).length) ∨
    (∃ m v, i = .testEvIv m v ∧ (encode i).take (fetchedBytes i) = testEvHead m ∧
      fetchedBytes i + 2 = (encode i).length) ∨
    fetchedBytes i = (encode i).length := by
  cases i
  case testEbIb m v =>
    refine .inl ⟨m, v, rfl, ?_, ?_⟩ <;> simp [fetchedBytes, encode_testEbIb]
  case testEvIv m v =>
    refine .inr (.inl ⟨m, v, rfl, ?_, ?_⟩) <;> simp [fetchedBytes, encode_testEvIv, leBytes]
  all_goals exact .inr (.inr rfl)

theorem fetchedBytes_le (i : Instr) : fetchedBytes i ≤ (encode i).length := by
  rcases fetchedBytes_cases i with ⟨m, v, -, -, h⟩ | ⟨m, v, -, -, h⟩ | h <;> omega

theorem take_fetchedBytes_ne_nil (i : Instr) : (encode i).take (fetchedBytes i) ≠ [] := by
  rcases fetchedBytes_cases i with ⟨m, v, -, h, -⟩ | ⟨m, v, -, h, -⟩ | h
  · exact h ▸ List.cons_ne_nil _ _
  · exact h ▸ List.cons_ne_nil _ _
  · rw [h, List.take_length]
    exact encode_ne_nil i

theorem afterBytes_ip : ∀ (n : Nat) (s : State), (s.afterBytes n).ip = s.ip + BitVec.ofNat 16 n
  | 0, s => (add_zero s.ip).symm
  | n + 1, s => by
    rw [State.afterBytes, afterBytes_ip n]
    show s.ip + 1 + BitVec.ofNat 16 n = _
    rw [add_assoc, BitVec.ofNat_add, add_comm (1 : Word)]
    rfl

/-- IP past the bytes fetched and `k` bytes of an immediate (10_state.md R36). -/
theorem atExec_eq {k : Nat} (s : State) (h : fetchedBytes i + k = (encode i).length) :
    s.atExec i = (s.afterBytes (fetchedBytes i)).setIp ((s.afterBytes (fetchedBytes i)).ip + BitVec.ofNat 16 k) := by
  rw [State.atExec, ← h, afterBytes_ip, BitVec.ofNat_add, add_assoc]

/-- The fetch of a well-formed instruction whose bytes the bus answers, and the state it is executed at. -/
theorem fetchInstr_of_presents (hw : i.wf = true) (hp : s.Presents i) :
    State.fetchInstr 6 [] s = (some i, s.atExec i) := by
  obtain ⟨hr, himm⟩ := hp
  have hle := fetchedBytes_le i
  have hlen : ((encode i).take (fetchedBytes i)).length = fetchedBytes i := List.length_take_of_le hle
  have hsix := encode_length_le_six hw
  have proper : ∀ k < ((encode i).take (fetchedBytes i)).length, k ≠ 0 →
      (∃ e, decode ([] ++ ((encode i).take (fetchedBytes i)).take k) = .error e) ∧
      testOperand ([] ++ ((encode i).take (fetchedBytes i)).take k) = none := by
    intro k hk _
    rw [hlen] at hk
    rw [List.nil_append, List.take_take, Nat.min_eq_left hk.le]
    refine ⟨decode_take_encode hw (by omega), ?_⟩
    cases h : testOperand ((encode i).take k) with
    | none => rfl
    | some o => exact absurd (fetchedBytes_of_testOperand hw (by omega) h) (by omega)
  rw [fetchInstr_of_reads 6 [] _ s (take_fetchedBytes_ne_nil i) (by omega) hr proper, List.nil_append, hlen]
  rcases fetchedBytes_cases i with ⟨m, v, rfl, hh, hl⟩ | ⟨m, v, rfl, hh, hl⟩ | hf
  · obtain ⟨e, he⟩ := decode_take_encode hw (k := fetchedBytes (.testEbIb m v)) (by omega)
    rw [hh] at he ⊢
    rw [he, testOperand_testEbHead hw]
    simp only [State.fetchTest]
    rw [atExec_eq s hl] at himm ⊢
    exact Prod.ext (congrArg (fun b => some (Instr.testEbIb m b)) himm) rfl
  · obtain ⟨e, he⟩ := decode_take_encode hw (k := fetchedBytes (.testEvIv m v)) (by omega)
    rw [hh] at he ⊢
    rw [he, testOperand_testEvHead hw]
    simp only [State.fetchTest]
    rw [atExec_eq s hl] at himm ⊢
    exact Prod.ext (congrArg (fun b => some (Instr.testEvIv m b)) himm) rfl
  · have ha : s.atExec i = s.afterBytes (fetchedBytes i) := by
      rw [State.atExec, ← hf, ← afterBytes_ip]
      rfl
    rw [hf, List.take_length, decode_encode hw, ← hf, ha]

/-! ## The step -/

theorem afterBytes_calls_length : ∀ (n : Nat) (s : State),
    (s.afterBytes n).bus.calls.length = s.bus.calls.length + n
  | 0, _ => rfl
  | n + 1, s => by
    rw [State.afterBytes, afterBytes_calls_length n]
    show s.bus.calls.length + 1 + n = _
    omega

theorem step_of_fetches (h : s.fetches) : step s = runInstr prefixLimit s.poll.clearPrefixes := by
  obtain ⟨hb, hf, hh⟩ := h
  simp [step, hb, hf, hh]

/-- One turn of the fetch, for an instruction that the bus answers. -/
theorem runInstr_of_presents (n : Nat) (hw : i.wf = true) (hp : s.beginInstr.Presents i)
    (he : exec i (s.beginInstr.atExec i) = .next t) :
    runInstr (n + 1) s = if isPrefixByte i then runInstr n t else .next (t.finish s.fetchByte s.flags.tf) :=
  runInstr_succ n (fetchInstr_of_presents hw hp) he

theorem finish_of_fault (h : t.faultRec ≠ none) (b : Byte) (tf : Bool) : t.finish b tf = t :=
  if_pos (Option.isSome_iff_ne_none.mpr h)

theorem finish_of_rep (h : t.faultRec = none) (hr : t.rep ≠ .none) (b : Byte) (tf : Bool) :
    t.finish b tf = t.raisePrefix b := by
  rw [State.finish, h, if_neg (by decide), if_pos (bne_iff_ne.mpr hr)]

theorem finish_of_no_rep (h : t.faultRec = none) (hr : t.rep = .none) (b : Byte) (tf : Bool) :
    t.finish b tf = if t.params.singleStep = true ∧ tf = true then t.serviceInterrupt 1 else t := by
  rw [State.finish, h, if_neg (by decide), hr, if_neg (by decide)]
  exact if_congr (Bool.and_eq_true _ _ ▸ Iff.rfl) rfl rfl

/-- Settles O52: the fetch of one instruction, then its meaning and the checks. -/
theorem stepRunsDecodedInstruction : Obligations.StepRunsDecodedInstruction := by
  unfold Obligations.StepRunsDecodedInstruction
  refine ⟨fun s => step_of_fetches, fun s t i n hw hp he => ⟨fun h => ?last, fun h => ?again⟩,
    fun s => ⟨rfl, rfl, rfl⟩,
    fun n s => ⟨afterBytes_ip n s, afterBytes_calls_length n s⟩, fun s i => ⟨rfl, ?length⟩,
    fun t b tf => ⟨fun h => finish_of_fault h b tf, fun h hr => finish_of_rep h hr b tf,
      fun h hr => finish_of_no_rep h hr b tf⟩⟩
  case last => rw [runInstr_of_presents n hw hp he, h, if_neg (by decide)]
  case again => rw [runInstr_of_presents n hw hp he, h, if_pos rfl]
  case length =>
    split
    · next m v => exact Nat.sub_add_cancel (by simp [encode_testEbIb])
    · next m v => exact Nat.sub_add_cancel (by simp [encode_testEvIv, leBytes])
    · next hb hw =>
      rcases fetchedBytes_cases i with ⟨m, v, e, -⟩ | ⟨m, v, e, -⟩ | h
      · exact absurd e (hb m v)
      · exact absurd e (hw m v)
      · exact h

/-- Fetching bytes keeps the fields the report of a stray REP is made of. -/
theorem afterBytes_keeps : ∀ (n : Nat) (s : State), (s.afterBytes n).rep = s.rep ∧
    (s.afterBytes n).faultRec = s.faultRec ∧ (s.afterBytes n).opCs = s.opCs ∧ (s.afterBytes n).opIp = s.opIp
  | 0, _ => ⟨rfl, rfl, rfl, rfl⟩
  | n + 1, s => afterBytes_keeps n s.afterFetchByte

theorem repAfter_of_not_declaresRepeat (hp : isPrefixByte i = false) (hd : declaresRepeat i = false) :
    s.repAfter i = s.rep := by
  unfold State.repAfter
  split
  · cases hp
  · cases hp
  · rw [hd, if_neg (by decide)]

/-- Settles O53: the instruction keeps REP, which the check at the end of the fetch reports. -/
theorem repeatPrefixIsFatal : Obligations.RepeatPrefixIsFatal := by
  unfold Obligations.RepeatPrefixIsFatal
  intro s i n hr hf hw hp hb hd hi
  obtain ⟨t, he⟩ := exec_next i (s.beginInstr.atExec i)
  have c := Controlled.of_exec he
  obtain ⟨k1, k2, k3, k4⟩ := afterBytes_keeps (fetchedBytes i) s.beginInstr
  have trep : t.rep ≠ .none := by
    rw [c.rep, repAfter_of_not_declaresRepeat hb hd]
    exact k1.trans_ne hr
  have tf : t.faultRec = none := (c.faultRec hi).trans (k2.trans hf)
  have tcs : t.opCs = s.sreg .cs := c.opCs.trans k3
  have tip : t.opIp = s.ip := c.opIp.trans k4
  refine ⟨t, _, he, ?_, rfl⟩
  rw [runInstr_of_presents n hw hp he, hb, if_neg (by decide), finish_of_rep tf trep, State.raisePrefix, tcs, tip]

/-! ## Polling, halting and refusing -/

theorem step_of_halted (hb : s.busInstalled = true) (hf : s.faultRec = none) (hh : s.poll.halted = true) :
    step s = .next s.poll := by
  simp [step, hb, hf, hh]

theorem poll_of_not_taken (h : s.irq = [] ∨ s.flags.ief = false) : s.poll = s := by
  unfold State.poll
  split
  · next v rest e =>
    rcases h with h | h
    · exact absurd (e.symm.trans h) (by simp)
    · rw [h, if_neg (by decide)]
  · rfl

/-- Settles O54: the poll by its two cases, the step by its refusals. -/
theorem pollAndRefusals : Obligations.PollAndRefusals := by
  unfold Obligations.PollAndRefusals
  refine ⟨fun s v vs hi hf => ?taken, fun s h => poll_of_not_taken h, fun s hb hf hh h => ?halted,
    fun s hb hf => ?faulted, fun s hb => ?noBus⟩
  case taken => rw [State.poll, hi]; exact if_pos hf
  case halted =>
    have e := poll_of_not_taken h
    rw [step_of_halted hb hf (by rw [e]; exact hh), e]
  case faulted => simp [step, hb, Option.isSome_iff_ne_none, hf]
  case noBus => simp [step, hb]

/-- The ModRM byte is an encoding's second (30_encoding.md R124). -/
theorem encode_invalidSub_modrm (b : Byte) (q : BitVec 3) (m : Rm (BitVec 3)) :
    (encode (.invalidSub b q m))[1]? = some (modrmOf q m) := by
  cases m with
  | reg n => rfl
  | mem p => cases p <;> rfl

/-- Settles O51: each row's record by definition; the ModRM byte is the encoding's second. -/
theorem invalidOpcodeRecorded : Obligations.InvalidOpcodeRecorded := by
  unfold Obligations.InvalidOpcodeRecorded
  refine ⟨fun b s => rfl, fun b q m s => ?_, fun b q n s => rfl⟩
  rw [encode_invalidSub_modrm, ← State.decoded_opCs s m, ← State.decoded_opIp s m]
  rfl

/-! ## Every fetch ends, or reads nothing but prefixes -/

/-- The bytes that are prefixes (30_encoding.md R139). -/
def prefixBytes : List Byte := [0x26, 0x2E, 0x36, 0x3E, 0xF0, 0xF2, 0xF3]

/-- Six bytes always decode, so a fetch always finds an instruction. -/
theorem fetchInstr_ne_none : ∀ (n : Nat) (bs : List Byte) (s : State), bs.length + (n + 1) = 6 →
    (State.fetchInstr (n + 1) bs s).1 ≠ none
  | n, bs, s, hl => by
    rw [State.fetchInstr]
    split
    · simp
    · next e he =>
      split
      · simp
      · cases n with
        | zero =>
          obtain ⟨i, rest, hd, -⟩ := sixBytesAlwaysDecode (bs ++ [s.fetchByte]) (by simpa using hl)
          rw [he] at hd
          cases hd
        | succ n => exact fetchInstr_ne_none n _ _ (by simp; omega)

/-- One of the prefixes that was fetched was decoded from the bytes read, the next of them first. -/
theorem decode_of_fetchInstr_prefix (hi : isPrefixByte i = true) : ∀ (n : Nat) (bs : List Byte) (s : State),
    State.fetchInstr n bs s = (some i, u) → ∃ new rest, decode (bs ++ s.fetchByte :: new) = .ok (i, rest)
  | 0, bs, s, h => by cases h
  | n + 1, bs, s, h => by
    rw [State.fetchInstr] at h
    split at h
    · next j rest hd =>
      cases h
      exact ⟨[], rest, hd⟩
    · split at h
      · next o _ =>
        cases o <;> cases h <;> cases hi
      · obtain ⟨new, rest, hd⟩ := decode_of_fetchInstr_prefix hi n _ _ h
        rw [List.append_assoc] at hd
        exact ⟨_, rest, hd⟩

/-- Each of the prefixes is one byte, and writes only `seg_override`, `rep` or `lock`. -/
theorem prefix_spec (hi : isPrefixByte i = true) : i.wf = true ∧ (∃ b ∈ prefixBytes, encode i = [b]) ∧
    ∀ s t, exec i s = .next t → t.bus = s.bus ∧ t.segs = s.segs ∧ t.ip = s.ip := by
  cases i
  case pfxEs | pfxCs | pfxSs | pfxDs | pfxLock | pfxRepnz | pfxRepz =>
    exact ⟨rfl, ⟨_, by decide, rfl⟩, fun s t h => by cases h; exact ⟨rfl, rfl, rfl⟩⟩
  all_goals cases hi

/-- One of the prefixes that was fetched is the byte at CS:IP. -/
theorem fetchInstr_prefix (hi : isPrefixByte i = true) (h : State.fetchInstr 6 [] s = (some i, u)) :
    s.fetchByte ∈ prefixBytes ∧ u = s.afterFetchByte := by
  obtain ⟨hw, ⟨b, hb, he⟩, -⟩ := prefix_spec hi
  obtain ⟨new, rest, hd⟩ := decode_of_fetchInstr_prefix hi 6 [] s h
  obtain ⟨-, hd⟩ := encodeOfDecode _ _ _ hd
  rw [he] at hd
  obtain rfl : b = s.fetchByte := (List.cons.inj hd).1
  have hb1 : decode [s.fetchByte] = .ok (i, []) := he ▸ decode_encode hw
  rw [State.fetchInstr, List.nil_append, hb1] at h
  exact ⟨hb, (congrArg Prod.snd h).symm⟩

/-- A fetch of `n` instructions ends, or the `n` bytes from CS:IP on are prefixes where memory holds them
(30_encoding.md R140, log 14). -/
theorem runInstr_ends : ∀ (n : Nat) (s : State), (∃ t, runInstr n s = .next t) ∨
    runInstr n s = .fault .endlessPrefixes ∧ ∀ k < n, ∀ b,
      s.memByte (phys (s.sreg .cs) (s.ip + BitVec.ofNat 16 k)) = some b → b ∈ prefixBytes
  | 0, s => .inr ⟨rfl, fun k hk => absurd hk (Nat.not_lt_zero k)⟩
  | n + 1, s => by
    obtain ⟨i, u, hf⟩ : ∃ i u, State.fetchInstr 6 [] s.beginInstr = (some i, u) := by
      obtain ⟨i, hi⟩ := Option.ne_none_iff_exists'.mp (fetchInstr_ne_none 5 [] s.beginInstr rfl)
      exact ⟨i, _, Prod.ext hi rfl⟩
    obtain ⟨t, he⟩ := exec_next i u
    rw [runInstr_succ n hf he]
    cases hp : isPrefixByte i with
    | false => exact .inl ⟨_, if_neg (by decide)⟩
    | true =>
      obtain ⟨hb, rfl⟩ := fetchInstr_prefix hp hf
      obtain ⟨hbus, hsegs, hip⟩ := (prefix_spec hp).2.2 _ _ he
      rw [if_pos rfl]
      refine (runInstr_ends n t).imp_right fun ⟨hr, hk⟩ => ⟨hr, fun k hlt b hm => ?_⟩
      cases k with
      | zero =>
        have e : s.fetchByte = b := State.readByte_of_memByte (by simpa using hm)
        exact e ▸ hb
      | succ k =>
        refine hk k (by omega) b ?_
        have hcs : t.sreg .cs = s.sreg .cs := congrArg (SegRegs.get · .cs) hsegs
        have hadd : t.ip + BitVec.ofNat 16 k = s.ip + BitVec.ofNat 16 (k + 1) := by
          rw [hip]
          show s.ip + 1 + BitVec.ofNat 16 k = _
          rw [add_assoc, BitVec.ofNat_add, add_comm (1 : Word)]
          rfl
        rw [hcs, hadd, State.memByte, hbus]
        exact hm

/-- Settles O55: `prefixLimit` turns read every offset of the code segment. -/
theorem everyFetchEnds : Obligations.EveryFetchEnds := by
  unfold Obligations.EveryFetchEnds
  intro s h
  rw [step_of_fetches h]
  refine (runInstr_ends prefixLimit s.poll.clearPrefixes).imp_right fun ⟨hr, hk⟩ => ⟨hr, fun k b hm => ?_⟩
  refine hk k.toNat k.isLt b ?_
  rw [BitVec.ofNat_toNat, BitVec.setWidth_eq]
  exact hm

end Sys2Proof.Machine
end
